-- ==== Sys2Proof/Word.lean ====
section
/-! DEFINITION. The word types of the BCH (15,5) syndrome engine (00_scope.md R6 to R8, R10, R12). -/

namespace Sys2Proof

/-- One byte lane of the bus (20_memory.md R53). -/
abbrev Byte := BitVec 8

/-- One 32-bit bus word, the data width of R10. -/
abbrev Word := BitVec 32

/-- A codeword or received word of `N = 15` bits (R6); bit i is the coefficient of x^i (R14). -/
abbrev Code := BitVec 15

/-- A message of `K = 5` bits (R7): ECL in bits 4..3, MASK in bits 2..0 (R35). -/
abbrev Message := BitVec 5

/-- A remainder, or syndrome, of `N - K = 10` bits (R8). -/
abbrev Syndrome := BitVec 10

/-- An opcode: the field OP of a command word (30_encoding.md R70). -/
abbrev Opcode := BitVec 4

end Sys2Proof
end

