-- ==== Sys2Proof/Syntax.lean ====
section
/-! DEFINITION. The command set of the block, one constructor per row of spec/opcode_table.json
(30_encoding.md R72). A command word carries no immediate, register index or mode field (R71), so no constructor
has an argument. -/

namespace Sys2Proof

/-- The seven legal commands (R72). -/
inductive Instr where
  /-- 0x0: no effect (40_control.md R106). -/
  | nop
  /-- 0x1: syndrome of OPA (41_syndrome.md R121). -/
  | syn
  /-- 0x2: validity of OPA (41_syndrome.md R122). -/
  | chk
  /-- 0x3: codeword of MSG (42_encoder.md R142). -/
  | enc
  /-- 0x4: minimum-distance decoding of OPA (43_decoder.md R162). -/
  | dec
  /-- 0x5: Hamming distance of OPA and OPB (44_distance.md R182). -/
  | dist
  /-- 0x6: Hamming weight of OPA (44_distance.md R183). -/
  | wgt
deriving DecidableEq, Repr

/-- The seven commands in the order of their opcodes (R72). -/
def Instr.all : List Instr := [.nop, .syn, .chk, .enc, .dec, .dist, .wgt]

/-- The six commands that issue, every command but NOP (R18 "Command", R101). -/
def Instr.computing : List Instr := [.syn, .chk, .enc, .dec, .dist, .wgt]

end Sys2Proof
end

