-- ==== Sys2Proof/WellFormed.lean ====
section
/-! DEFINITION. What makes a command word one of the opcode map (30_encoding.md R70, R72 to R74). An instruction as
a term has no operand that could be out of range (R71), so its own check is always true; the checks with content
are those of the word. -/

namespace Sys2Proof

/-- R71: a command carries no operand field, so each of the seven is well formed as it stands. -/
def Instr.wellFormed (i : Instr) : Bool :=
  match i with
  | .nop => true
  | .syn => true
  | .chk => true
  | .enc => true
  | .dec => true
  | .dist => true
  | .wgt => true

/-- R73: the reserved field `v[31:4]` is zero. -/
def rsvIsZero (v : Word) : Bool := v.extractLsb' 4 28 == 0

/-- R74: the opcode `v[3:0]` is not one of the reserved 0x7 to 0xF. -/
def opIsAssigned (v : Word) : Bool := (v.extractLsb' 0 4).toNat < 7

/-- A command word of the opcode map: both fields as R70 to R74 ask. -/
def wordIsWellFormed (v : Word) : Bool := rsvIsZero v && opIsAssigned v

end Sys2Proof
end

