-- ==== Sys2Proof/Decode.lean ====
section
/-! DEFINITION. Byte lanes of a bus word (20_memory.md R53), the command decoder `DecodeCmd` of 30_encoding.md R75,
total over all words and over all byte strings, and the encoder written from the same table (R72). -/

namespace Sys2Proof

/-- R53: byte lane k of a 32-bit access carries bits `[8k+7:8k]`; lane 0 first. -/
def lanesOf (v : Word) : List Byte :=
  [v.extractLsb' 0 8, v.extractLsb' 8 8, v.extractLsb' 16 8, v.extractLsb' 24 8]

/-- The word that four byte lanes carry, lane 0 first (R53); no other number of lanes is a word (R52). -/
def wordOfLanes (lanes : List Byte) : Option Word :=
  match lanes with
  | [b0, b1, b2, b3] => some (b3 ++ b2 ++ b1 ++ b0)
  | _ => none

/-- Why a byte string is not a command; R75 calls the first two ILLEGAL, and the third is no command word at all,
since "Every command word is exactly 32 bits" (R70). -/
inductive DecodeReject where
  /-- R73: a bit of the reserved field `v[31:4]` is set. -/
  | reservedBits
  /-- R74: the opcode is one of 0x7 to 0xF. -/
  | reservedOpcode
  /-- R70: not four bytes. -/
  | notOneWord
deriving DecidableEq, Repr

/-- The opcode map of R72, read from opcode to command; 0x7 to 0xF name none (R74). -/
def instrOfOpcode (op : Opcode) : Option Instr :=
  if op = 0x0#4 then some .nop
  else if op = 0x1#4 then some .syn
  else if op = 0x2#4 then some .chk
  else if op = 0x3#4 then some .enc
  else if op = 0x4#4 then some .dec
  else if op = 0x5#4 then some .dist
  else if op = 0x6#4 then some .wgt
  else none

/-- `DecodeCmd(v)` of R75, with the two ways to be ILLEGAL named. -/
def decodeWord (v : Word) : Except DecodeReject Instr :=
  if v.extractLsb' 4 28 ≠ 0 then .error .reservedBits
  else
    match instrOfOpcode (v.extractLsb' 0 4) with
    | some i => .ok i
    | none => .error .reservedOpcode

/-- The decoder on the bytes a bus write carries (R53, R70, R75). -/
def decode (lanes : List Byte) : Except DecodeReject Instr :=
  match wordOfLanes lanes with
  | some v => decodeWord v
  | none => .error .notOneWord

/-- The field OP of each command (R72). -/
def opcodeOf (i : Instr) : Opcode :=
  match i with
  | .nop => 0x0#4
  | .syn => 0x1#4
  | .chk => 0x2#4
  | .enc => 0x3#4
  | .dec => 0x4#4
  | .dist => 0x5#4
  | .wgt => 0x6#4

/-- The CMD word of each command: RSV zero above OP (R70, R72). -/
def encodeWord (i : Instr) : Word := 0#28 ++ opcodeOf i

/-- The bytes of a command's CMD word as the bus carries them (R53, R72). -/
def encode (i : Instr) : List Byte := lanesOf (encodeWord i)

/-- The bits the opcode table gives, as a natural number: every bit from `nbits` on is 0. -/
def tableBits (nbits w : Nat) : Nat := w % 2 ^ nbits

/-- The command that the bytes of a table word decode to; a number of more than 32 bits is not one CMD word (R70). -/
def decodeTableWord (nbits w : Nat) : Option Instr :=
  if tableBits nbits w < 2 ^ 32 then
    match decode (lanesOf (BitVec.ofNat 32 (tableBits nbits w))) with
    | .ok i => some i
    | .error _ => none
  else none

end Sys2Proof
end

