-- ==== Sys2Proof/Config.lean ====
section
/-! DEFINITION. The parameters of the block (00_scope.md R10, R11): the fixed sizes of the register window, and the
open parameter BASE. The other open parameter, LATENCY, has no constant: every finite latency is a place of the
engine's turn in State's agenda (log 5). -/

namespace Sys2Proof

/-- Bytes of the register window: sixteen 32-bit slots (R10). -/
def windowBytes : Nat := 64

/-- Bytes of the only legal access (20_memory.md R52). -/
def accessBytes : Nat := 4

/-- What the platform chooses for the block: the place of the register window (R10, R11; 20_memory.md R51, D4).
BASE is a multiple of 64, so the platform chooses a slot number. Bus addresses are natural numbers (log 4). -/
structure Platform where
  baseSlot : Nat
deriving DecidableEq, Repr

/-- `BASE`, a multiple of 64 by construction (R10). -/
def Platform.base (p : Platform) : Nat := windowBytes * p.baseSlot

end Sys2Proof
end

