-- ==== Sys2Proof/Machine/State.lean ====
section
/-! DEFINITION. The state of the block (10_state.md R45), the coming steps and the last bus reply beside it, the state
after reset (R46), and the reasons a step can stop. -/

namespace Sys2Proof.Machine

/-- One bus access of the host (20_memory.md R54, R55): its byte address, and its size in bytes or the byte lanes it
writes, lane 0 first (R53). A write's size is its number of lanes. -/
inductive Access where
  | read (addr size : Nat)
  | write (addr : Nat) (lanes : List Byte)
deriving DecidableEq, Repr

/-- One atomic step of the total order of R60: an access or a reset of the host, or a turn of the engine (R20). -/
inductive Turn where
  /-- One bus access of the host (R20, R56). -/
  | host (a : Access)
  /-- The engine's turn: it completes the command in flight, if there is one (R102, R103). -/
  | engine
  /-- The reset input is asserted (70_reset_and_hazards.md R220), with the access, if any, that the host makes
  against R222 while it is. -/
  | reset (during : Option Access)
deriving DecidableEq, Repr

/-- What the host's bus got back from its last access (R54, R55); the model's own field (log 11). -/
inductive Reply where
  /-- No access has been answered yet. -/
  | noReply
  /-- The last access was a write. -/
  | written
  /-- The last access was a read; these are its byte lanes, lane 0 first (R53). -/
  | data (lanes : List Byte)
deriving DecidableEq, Repr

/-- The architectural state of the block, the record of R45 field by field. STATUS.BUSY is `pendValid` and is not
stored a second time (R45). -/
structure Block where
  /-- STATUS.DONE (R27). -/
  done : Bool
  /-- STATUS.VALID (R28). -/
  valid : Bool
  /-- STATUS.DOK (R29). -/
  dok : Bool
  /-- STATUS.ILL (R30). -/
  ill : Bool
  /-- STATUS.OVR (R31). -/
  ovr : Bool
  /-- OPA (R33). -/
  opa : Code
  /-- OPB (R34). -/
  opb : Code
  /-- MSG (R35). -/
  msg : Message
  /-- RESULT (R38). -/
  result : Code
  /-- In-flight latch: a command is in flight (R26, R40). -/
  pendValid : Bool
  /-- In-flight latch: its opcode (R40). -/
  pendOp : Opcode
  /-- In-flight latch: OPA at its issue (R40). -/
  pendA : Code
  /-- In-flight latch: OPB at its issue (R40). -/
  pendB : Code
  /-- In-flight latch: MSG at its issue (R40). -/
  pendMsg : Message
deriving DecidableEq, Repr

/-- The machine: the block, and the model's own fields beside it (log 1, log 4, log 11). -/
structure State where
  /-- The block (R45). -/
  block : Block
  /-- The platform's open parameter BASE, which no step changes (R11). -/
  platform : Platform
  /-- The steps still to come, next one first (R20, R60, R102). -/
  agenda : List Turn
  /-- The answer to the host's last access. -/
  reply : Reply
deriving DecidableEq, Repr

/-- Faults of the model. The block itself never traps and never stops (60_exceptions.md R200). -/
inductive Fault where
  /-- Raised by a completion whose latch holds no opcode of a computing command, which R40 says cannot be. No state
  that keeps the invariant of Sys2Proof/Safety.lean raises it. SAFE: the model stops (log 10). -/
  | latchHoldsNoCommand
deriving DecidableEq, Repr

/-- Refusals of the model: accesses to which the spec gives no effect on the block. -/
inductive Refusal where
  /-- Raised by exec for an instruction without a meaning. SAFE. No arm raises it. -/
  | notModelled (mnemonic : String)
  /-- Raised by a host access of another size than 4 bytes or at an offset that is not a multiple of 4: the bus error
  response, which a model of the block treats as a refusal (R52, R202, U4). SAFE (log 6). -/
  | busError (addr : Nat)
  /-- Raised by a host access whose address is not in the window: it is not the block's (R51). SAFE (log 7). -/
  | outsideWindow (addr : Nat)
  /-- Raised by a host access while reset is asserted, whose response is not specified (R222, U3). SAFE (log 8). -/
  | accessDuringReset (addr : Nat)
deriving DecidableEq, Repr

/-- The block after reset: the values of R46; the latch fields that R46 calls don't-care are 0 here
(DESIGN CHOICE, log 9). -/
def Block.reset : Block where
  done := false
  valid := false
  dok := false
  ill := false
  ovr := false
  opa := 0
  opb := 0
  msg := 0
  result := 0
  pendValid := false
  pendOp := 0
  pendA := 0
  pendB := 0
  pendMsg := 0

/-- The machine right after reset (R46, R221), with nothing to come and no reply given; the window stands at BASE 0
(DESIGN CHOICE, log 1, log 4, log 11). -/
def State.reset : State where
  block := Block.reset
  platform := { baseSlot := 0 }
  agenda := []
  reply := .noReply

end Sys2Proof.Machine
end

