-- ==== Sys2Proof/Machine/Ops.lean ====
section
/-! DEFINITION. The pure functions of the codec (R120, R140, R160, R180, R181) and the operations the commands share:
the command write's outcomes (R101, R104, R105), the end of a completion (R103), and reset (R220). The block has no
trap entry and no return (60_exceptions.md R205, R206): an error condition is one sticky bit. -/

namespace Sys2Proof.Machine

/-! ### The codec -/

/-- The generator `GEN = 0b10100110111` (00_scope.md R9), a wired constant (R42). -/
def gen : BitVec 11 := 0b10100110111#11

/-- `zext_15(GEN) << s` (R120); for s up to 4 its top bit is at s + 10, so nothing is lost. -/
def genShifted (s : Nat) : Code := gen.setWidth 15 <<< s

/-- One conditional subtraction of the divider: the bit inspected is the ACCUMULATOR's (R120, 90_conflicts.md C1). -/
def divStep (acc : Code) (s : Nat) : Code :=
  if acc.getLsbD (s + 10) then acc ^^^ genShifted s else acc

/-- The divider's accumulator after the steps s = 4, 3, 2, 1, 0 (R120). -/
def divAccumulator (v : Code) : Code := [4, 3, 2, 1, 0].foldl divStep v

/-- `Remainder(v)` (R120): bits 9..0 of the final accumulator. -/
def bchRemainder (v : Code) : Syndrome := (divAccumulator v).setWidth 10

/-- The literal-text divider of 93_implementation_defined.md, which tests the input's bit: NOT this hardware. No
command calls it; it stands here so that the difference of 90_conflicts.md C1 can be stated (log 16). -/
def remainderInputTap (v : Code) : Code :=
  [4, 3, 2, 1, 0].foldl (fun acc s => if v.getLsbD (s + 10) then acc ^^^ genShifted s else acc) v

/-- `Encode(m)` (42_encoder.md R140). No QR format mask is applied (R146). -/
def bchEncode (m : Message) : Code :=
  let hi : Code := m.setWidth 15 <<< 10
  hi ^^^ (bchRemainder hi).setWidth 15

/-- `Popcount(x)` by shift and mask (44_distance.md R180). -/
def popcount (x : Code) : Nat :=
  (List.range 15).foldl (fun n i => n + ((x >>> i) &&& 1#15).toNat) 0

/-- `Distance(a, b)` (R181). -/
def distance (a b : Code) : Nat := popcount (a ^^^ b)

/-- The decoder's running values (43_decoder.md R160): local to one evaluation, no state of the block (R42). -/
structure DecodeRun where
  /-- The tag: best is a Success. -/
  ok : Bool
  /-- The best message; don't-care while `ok` is false (log 15). -/
  msg : Message
  /-- The running minimum distance. -/
  minD : Nat
deriving DecidableEq, Repr

/-- `best = Failure`, `minDistance = 15` (R160, R161; the literal 15 by 90_conflicts.md C3). -/
def decodeStart : DecodeRun := { ok := false, msg := 0, minD := 15 }

/-- One candidate of the policy (R160, R161): a strictly smaller distance is a new best, an equal one makes the best a
Failure and keeps the minimum, a larger one changes nothing. -/
def decodeCandidate (r : Code) (run : DecodeRun) (m : Message) : DecodeRun :=
  let d := distance r (bchEncode m)
  if d < run.minD then { ok := true, msg := m, minD := d }
  else if d == run.minD then { run with ok := false }
  else run

/-- The candidates 0 to 31 in increasing numeric order (R161). -/
def candidates : List Message := (List.range 32).map (BitVec.ofNat 5)

/-- `Decode(r)` (R160): the tag, and the message, which means something only where the tag is true. -/
def bchDecode (r : Code) : Bool × Message :=
  let final := candidates.foldl (decodeCandidate r) decodeStart
  (final.ok, final.msg)

/-! ### The command lifecycle -/

/-- The state with its block changed by `f` and nothing else changed. -/
def State.onBlock (f : Block → Block) (s : State) : State := { s with block := f s.block }

/-- STATUS.BUSY: a command is in flight (10_state.md R26, R45). -/
def Block.busy (b : Block) : Bool := b.pendValid

/-- An illegal command write: its only effect is `STATUS.ILL <- 1` (40_control.md R104). -/
def recordIllegal (b : Block) : Block := { b with ill := true }

/-- An overrun: the command is dropped and its only effect is `STATUS.OVR <- 1` (R105). -/
def recordOverrun (b : Block) : Block := { b with ovr := true }

/-- Issue of the command with opcode `op` (R101): all three operand registers are latched, BUSY becomes 1 and DONE 0. -/
def issue (op : Opcode) (b : Block) : Block :=
  { b with
    pendOp := op
    pendA := b.opa
    pendB := b.opb
    pendMsg := b.msg
    pendValid := true
    done := false }

/-- The write of a legal computing command (R100, R107): an overrun while BUSY, else issue. -/
def issueOrDrop (op : Opcode) (b : Block) : Block :=
  if b.busy then recordOverrun b else issue op b

/-- What every completion does after its command's effect (R103): BUSY becomes 0 and DONE 1. -/
def finish (b : Block) : Block := { b with pendValid := false, done := true }

/-- `Reset()` of 70_reset_and_hazards.md R220. The other latch fields are don't-care and hold their last values
(R40, R46, U7; log 9); the platform, the agenda and the reply are no state of the block and keep theirs (log 17). -/
def Block.applyReset (b : Block) : Block :=
  { b with
    pendValid := false
    done := false
    valid := false
    dok := false
    ill := false
    ovr := false
    opa := 0
    opb := 0
    msg := 0
    result := 0 }

end Sys2Proof.Machine
end

