-- ==== Sys2Proof/Machine/Flags.lean ====
section
/-! DEFINITION. The STATUS word and its flags (10_state.md R25 to R32). -/

namespace Sys2Proof.Machine

/-- The six STATUS bits `OVR || ILL || DOK || VALID || DONE || BUSY`, bit 5 to bit 0 (R25). -/
def statusBits (b : Block) : BitVec 6 :=
  BitVec.ofBool b.ovr ++ BitVec.ofBool b.ill ++ BitVec.ofBool b.dok ++ BitVec.ofBool b.valid ++
    BitVec.ofBool b.done ++ BitVec.ofBool b.busy

/-- `STATUS_WORD`: the six bits zero-extended; bits 31..6 read as zero (R25). -/
def statusWord (b : Block) : Word := (statusBits b).setWidth 32

/-- A host write of `v` to STATUS: 1 in bit 4 clears ILL, 1 in bit 5 clears OVR, every other bit of `v` is ignored
(R30, R31, R32). -/
def writeStatus (v : Word) (b : Block) : Block :=
  { b with
    ill := b.ill && !v.getLsbD 4
    ovr := b.ovr && !v.getLsbD 5 }

/-- `isValid`: the value SYN and CHK write to VALID (R28; 41_syndrome.md R121, R122). -/
def isValid (a : Code) : Bool := bchRemainder a == 0

end Sys2Proof.Machine
end

