-- ==== Sys2Proof/Machine/Operands.lean ====
section
/-! DEFINITION. The register window: where each register stands, what a host reads there, and what a host write stores
(10_state.md R23 to R39; 20_memory.md R51 to R55), and the fields of MSG (R35 to R37). -/

namespace Sys2Proof.Machine

/-- The slots of the register window (R23). -/
inductive Reg where
  | cmd | status | opa | opb | msg | result | reserved
deriving DecidableEq, Repr

/-- The register at a byte offset that is a multiple of 4 (R23, R54, R55); 0x18 to 0x3C are reserved (R39). -/
def regAt (off : Nat) : Reg :=
  if off = 0x00 then .cmd
  else if off = 0x04 then .status
  else if off = 0x08 then .opa
  else if off = 0x0C then .opb
  else if off = 0x10 then .msg
  else if off = 0x14 then .result
  else .reserved

/-- The window holds the byte addresses `BASE` to `BASE + 0x3F` (R50, R51). -/
def inWindow (p : Platform) (addr : Nat) : Bool :=
  decide (p.base ≤ addr) && decide (addr < p.base + windowBytes)

/-- `off = addr - BASE` (R51). -/
def offsetOf (p : Platform) (addr : Nat) : Nat := addr - p.base

/-- `Legal(addr, n)` (R52): four bytes at an offset that is a multiple of 4. -/
def legalAccess (p : Platform) (addr size : Nat) : Bool :=
  size == accessBytes && offsetOf p addr % 4 == 0

/-- The byte address of an access. -/
def Access.addr (a : Access) : Nat :=
  match a with
  | .read addr _ => addr
  | .write addr _ => addr

/-- The size of an access in bytes; a write carries one byte lane for each. -/
def Access.size (a : Access) : Nat :=
  match a with
  | .read _ size => size
  | .write _ lanes => lanes.length

/-- `MemRead` by register (R54): CMD is write-only and reads zero (R24), the operand and result registers are
zero-extended (R33 to R35, R38), reserved slots read zero (R39). A read is a function of the block alone (R44). -/
def readReg (r : Reg) (b : Block) : Word :=
  match r with
  | .cmd => 0#32
  | .status => statusWord b
  | .opa => b.opa.setWidth 32
  | .opb => b.opb.setWidth 32
  | .msg => b.msg.setWidth 32
  | .result => b.result.setWidth 32
  | .reserved => 0#32

/-- A host write of `v` to OPA: `OPA <- v[14:0]` (R33). -/
def writeOpa (v : Word) (b : Block) : Block := { b with opa := v.extractLsb' 0 15 }

/-- A host write of `v` to OPB: `OPB <- v[14:0]` (R34). -/
def writeOpb (v : Word) (b : Block) : Block := { b with opb := v.extractLsb' 0 15 }

/-- A host write of `v` to MSG: `MSG <- v[4:0]` (R35). -/
def writeMsg (v : Word) (b : Block) : Block := { b with msg := v.extractLsb' 0 5 }

/-- `MSG.MASK = MSG[2:0]`, the mask-pattern index, 0 to 7 for the patterns a to h (R35, R37). -/
def msgMask (m : Message) : BitVec 3 := m.extractLsb' 0 3

/-- `MSG.ECL = MSG[4:3]`, the error-correction-level code (R35). -/
def msgEcl (m : Message) : BitVec 2 := m.extractLsb' 3 2

/-- `code = ECL[1:0] || MASK[2:0]` (30_encoding.md R78). -/
def msgOfFields (ecl : BitVec 2) (mask : BitVec 3) : Message := ecl ++ mask

/-- The four error-correction levels (R36). -/
inductive EclLevel where
  | m | l | h | q
deriving DecidableEq, Repr

/-- The historical fixed codes `L=01, M=00, Q=11, H=10`, read from the code (R36). The engine gives the split no
meaning (R35). -/
def levelOfEcl (ecl : BitVec 2) : EclLevel :=
  match ecl.toNat with
  | 0 => .m
  | 1 => .l
  | 2 => .h
  | _ => .q

/-- The same codes, read from the level (R36). -/
def eclOfLevel (level : EclLevel) : BitVec 2 :=
  match level with
  | .m => 0b00#2
  | .l => 0b01#2
  | .h => 0b10#2
  | .q => 0b11#2

/-- The mask patterns' names `a` to `h`, in order of their index (R37). -/
inductive MaskPattern where
  | a | b | c | d | e | f | g | h
deriving DecidableEq, Repr

/-- The pattern an index names (R37): pattern d is 3. -/
def patternOfMask (mask : BitVec 3) : MaskPattern :=
  match mask.toNat with
  | 0 => .a
  | 1 => .b
  | 2 => .c
  | 3 => .d
  | 4 => .e
  | 5 => .f
  | 6 => .g
  | _ => .h

end Sys2Proof.Machine
end

