-- ==== Sys2Proof/Machine/Comparator.lean ====
section
/-! DEFINITION. The comparator commands, DIST and WGT (44_distance.md R182, R183). -/

namespace Sys2Proof.Machine

/-- A CMD write of DIST (40_control.md R100, R182): issue, or overrun while BUSY. -/
def execDist (s : State) : Host.Outcome State Fault Refusal := .next (s.onBlock (issueOrDrop (opcodeOf .dist)))

/-- `DistEffect(pend_a, pend_b)` (R182): RESULT is the distance, 0 to 15; no flag is written. -/
def distEffect (b : Block) : Block := { b with result := BitVec.ofNat 15 (distance b.pendA b.pendB) }

/-- A CMD write of WGT (R100, R183): issue, or overrun while BUSY. -/
def execWgt (s : State) : Host.Outcome State Fault Refusal := .next (s.onBlock (issueOrDrop (opcodeOf .wgt)))

/-- `WgtEffect(pend_a)` (R183): RESULT is the weight, 0 to 15; the latched OPB is not read and no flag is written. -/
def wgtEffect (b : Block) : Block := { b with result := BitVec.ofNat 15 (popcount b.pendA) }

end Sys2Proof.Machine
end

