-- ==== Sys2Proof/Machine/Control.lean ====
section
/-! DEFINITION. The control command, NOP (40_control.md R106). -/

namespace Sys2Proof.Machine

/-- NOP: no effect at all, in any state; while BUSY it is not an overrun (R106). -/
def execNop (s : State) : Host.Outcome State Fault Refusal := .next s

end Sys2Proof.Machine
end

