-- ==== Sys2Proof/Machine/Decoder.lean ====
section
/-! DEFINITION. The decoder command, DEC (43_decoder.md R162). -/

namespace Sys2Proof.Machine

/-- A CMD write of DEC (40_control.md R100, R162): issue, or overrun while BUSY. -/
def execDec (s : State) : Host.Outcome State Fault Refusal := .next (s.onBlock (issueOrDrop (opcodeOf .dec)))

/-- `DecEffect(pend_a)` (R162): DOK is the tag; RESULT is the message on Success and 0 on Failure (D16). VALID is not
written. -/
def decEffect (b : Block) : Block :=
  { b with
    dok := (bchDecode b.pendA).1
    result := if (bchDecode b.pendA).1 then (bchDecode b.pendA).2.setWidth 15 else 0 }

end Sys2Proof.Machine
end

