-- ==== Sys2Proof/Machine/Encoder.lean ====
section
/-! DEFINITION. The encoder command, ENC (42_encoder.md R142). -/

namespace Sys2Proof.Machine

/-- A CMD write of ENC (40_control.md R100, R142): issue, or overrun while BUSY. -/
def execEnc (s : State) : Host.Outcome State Fault Refusal := .next (s.onBlock (issueOrDrop (opcodeOf .enc)))

/-- `EncEffect(pend_msg)` (R142): RESULT is the codeword; no flag is written. -/
def encEffect (b : Block) : Block := { b with result := bchEncode b.pendMsg }

end Sys2Proof.Machine
end

