-- ==== Sys2Proof/Machine/Syndrome.lean ====
section
/-! DEFINITION. The syndrome family, SYN and CHK (41_syndrome.md R121, R122): what the CMD write does, and the effect
at completion, which reads the latched word only (40_control.md R103). -/

namespace Sys2Proof.Machine

/-- A CMD write of SYN (R100, R121): issue, or overrun while BUSY. -/
def execSyn (s : State) : Host.Outcome State Fault Refusal := .next (s.onBlock (issueOrDrop (opcodeOf .syn)))

/-- `SynEffect(pend_a)` (R121): RESULT is the zero-extended syndrome, VALID tells whether it is zero. -/
def synEffect (b : Block) : Block :=
  { b with result := (bchRemainder b.pendA).setWidth 15, valid := isValid b.pendA }

/-- A CMD write of CHK (R100, R122): issue, or overrun while BUSY. -/
def execChk (s : State) : Host.Outcome State Fault Refusal := .next (s.onBlock (issueOrDrop (opcodeOf .chk)))

/-- `ChkEffect(pend_a)` (R122): RESULT and VALID are 1 exactly where the syndrome is zero. -/
def chkEffect (b : Block) : Block :=
  { b with result := (BitVec.ofBool (isValid b.pendA)).setWidth 15, valid := isValid b.pendA }

end Sys2Proof.Machine
end

