-- ==== Sys2Proof/Machine/Completion.lean ====
section
/-! DEFINITION. The engine's one step: the completion of the command in flight (40_control.md R102, R103). -/

namespace Sys2Proof.Machine

/-- The completion effect of the command that an opcode names (R103). The latch holds an opcode of the six computing
commands whenever it is occupied (R40); the other two cases are no effect of the spec's. -/
def completionEffect (op : Opcode) : Option (Block → Block) :=
  match instrOfOpcode op with
  | some .syn => some synEffect
  | some .chk => some chkEffect
  | some .enc => some encEffect
  | some .dec => some decEffect
  | some .dist => some distEffect
  | some .wgt => some wgtEffect
  | some .nop => none
  | none => none

/-- `Complete()` (R103), one atomic step: the effect of the latched command, then BUSY 0 and DONE 1. The fault is that
of a latch that R40 excludes (log 10). -/
def complete (s : State) : Host.Outcome State Fault Refusal :=
  match completionEffect s.block.pendOp with
  | some effect => .next (s.onBlock fun b => finish (effect b))
  | none => .fault .latchHoldsNoCommand

/-- The engine's turn: its completion step is enabled exactly when a command is in flight (R102); a turn it cannot use
changes nothing (log 3). -/
def engineTurn (s : State) : Host.Outcome State Fault Refusal :=
  if s.block.busy then complete s else .next s

end Sys2Proof.Machine
end

