-- ==== Sys2Proof/Machine/Dispatch.lean ====
section
/-! DEFINITION. One arm for each command of the opcode map (30_encoding.md R72): what a CMD write of it does
(40_control.md R100). -/

namespace Sys2Proof.Machine

/-- The meaning of each command at its CMD write. -/
def exec (i : Instr) (s : State) : Host.Outcome State Fault Refusal :=
  match i with
  | .nop => Sys2Proof.Machine.execNop s
  | .syn => Sys2Proof.Machine.execSyn s
  | .chk => Sys2Proof.Machine.execChk s
  | .enc => Sys2Proof.Machine.execEnc s
  | .dec => Sys2Proof.Machine.execDec s
  | .dist => Sys2Proof.Machine.execDist s
  | .wgt => Sys2Proof.Machine.execWgt s

end Sys2Proof.Machine
end

