-- ==== Sys2Proof/Machine/Bus.lean ====
section
/-! DEFINITION. The host's steps: the command write (40_control.md R100), bus reads and writes of the window
(20_memory.md R51 to R55), the reset input (70_reset_and_hazards.md R220, R222), and the turns of the agenda. -/

namespace Sys2Proof.Machine

/-- `CommandWrite(v)` (R100): an illegal word sets ILL whatever else holds (R104, R107); a command has its meaning. -/
def commandWrite (v : Word) (s : State) : Host.Outcome State Fault Refusal :=
  match decodeWord v with
  | .ok i => exec i s
  | .error _ => .next (s.onBlock recordIllegal)

/-- `MemWrite` by register (R55): RESULT is read-only (R38) and reserved slots ignore writes (R39). -/
def writeReg (r : Reg) (v : Word) (s : State) : Host.Outcome State Fault Refusal :=
  match r with
  | .cmd => commandWrite v s
  | .status => .next (s.onBlock (writeStatus v))
  | .opa => .next (s.onBlock (writeOpa v))
  | .opb => .next (s.onBlock (writeOpb v))
  | .msg => .next (s.onBlock (writeMsg v))
  | .result => .next s
  | .reserved => .next s

/-- The bus's answer to the host. -/
def State.replied (r : Reply) (s : State) : State := { s with reply := r }

/-- A legal access (R54, R55). A write whose lanes are not one word is never legal (R52) and gets the bus error. -/
def serveAccess (a : Access) (s : State) : Host.Outcome State Fault Refusal :=
  match a with
  | .read addr _ =>
    .next (s.replied (.data (lanesOf (readReg (regAt (offsetOf s.platform addr)) s.block))))
  | .write addr lanes =>
    match wordOfLanes lanes with
    | some v => writeReg (regAt (offsetOf s.platform addr)) v (s.replied .written)
    | none => .refused (.busError addr)

/-- One bus access of the host: outside the window it is not the block's (R51, log 7); of another size or alignment
than R52 allows it is refused with no effect (R52, R202, R204, log 6); else it is performed. -/
def hostAccess (a : Access) (s : State) : Host.Outcome State Fault Refusal :=
  if inWindow s.platform a.addr then
    if legalAccess s.platform a.addr a.size then serveAccess a s
    else .refused (.busError a.addr)
  else .refused (.outsideWindow a.addr)

/-- The reset input is asserted (R220); a host access made while it is has no specified response (R222, U3, log 8). -/
def resetTurn (during : Option Access) (s : State) : Host.Outcome State Fault Refusal :=
  match during with
  | none => .next (s.onBlock Block.applyReset)
  | some a => .refused (.accessDuringReset a.addr)

/-- One turn of the total order of R60. -/
def takeTurn (t : Turn) (s : State) : Host.Outcome State Fault Refusal :=
  match t with
  | .host a => hostAccess a s
  | .engine => engineTurn s
  | .reset during => resetTurn during s

/-- The next step of the machine: the next turn of the agenda, taken with the later turns left; with no turn left, the
engine's (R102: a command in flight completes; R111: a quiescent engine with no further access is the end of the run,
where nothing changes; log 2). -/
def nextTurn (s : State) : Host.Outcome State Fault Refusal :=
  match s.agenda with
  | [] => engineTurn s
  | t :: rest => takeTurn t { s with agenda := rest }

/-- A host write of four byte lanes at the CMD register: what starts a command (R24). -/
def commandAccess (p : Platform) (v : Word) : Access := .write p.base (lanesOf v)

end Sys2Proof.Machine
end

