-- ==== Sys2Proof/Machine/Step.lean ====
section
/-! DEFINITION. One step of the machine, and the placing of a command word where the next step takes it. -/

namespace Sys2Proof.Machine

/-- One atomic step of the total order of 20_memory.md R60. -/
def step (s : State) : Host.Outcome State Fault Refusal := nextTurn s

/-- `s` with a CMD write of the given word as its next turn. The block fetches nothing (10_state.md R21): a command
reaches it as one write of CMD (R24), so this is how a command comes to run (log 14). -/
def State.withFetchWord (s : State) (nbits w : Nat) : State :=
  { s with agenda := .host (commandAccess s.platform (BitVec.ofNat 32 (tableBits nbits w))) :: s.agenda }

end Sys2Proof.Machine
end

