-- ==== Sys2Proof/Safety.lean ====
section
/-! DEFINITION. The terms in which claims about runs are made: which turns are served, which steps reset, complete or
write a register, the invariant of the block, and the terms of the codec's laws. -/

namespace Sys2Proof.Machine

/-! ### Turns -/

/-- The block performs this access: it lies in the window and is legal (20_memory.md R51, R52). -/
def Access.served (p : Platform) (a : Access) : Bool :=
  inWindow p a.addr && legalAccess p a.addr a.size

/-- A served host access, and no other turn. -/
def Turn.servedAccess (p : Platform) (t : Turn) : Bool :=
  match t with
  | .host a => a.served p
  | .engine => false
  | .reset _ => false

/-- A turn the model has a step for: a served access, a turn of the engine, or a reset with no access against R222. -/
def Turn.served (p : Platform) (t : Turn) : Bool :=
  match t with
  | .host a => a.served p
  | .engine => true
  | .reset none => true
  | .reset (some _) => false

/-- The word a turn writes at a window offset, if it is a four-byte write there. -/
def Turn.writes (p : Platform) (off : Nat) (t : Turn) : Option Word :=
  match t with
  | .host (.write addr lanes) => if addr = p.base + off then wordOfLanes lanes else none
  | .host (.read _ _) => none
  | .engine => none
  | .reset _ => none

/-- The turn asserts reset (70_reset_and_hazards.md R220). -/
def Turn.isReset (t : Turn) : Bool :=
  match t with
  | .host _ => false
  | .engine => false
  | .reset _ => true

/-! ### The next step of a state -/

/-- The next turn, the engine's where the agenda is empty (log 2). -/
def State.turn (s : State) : Turn :=
  match s.agenda with
  | [] => .engine
  | t :: _ => t

/-- The next step asserts reset. -/
def State.resets (s : State) : Bool := s.turn.isReset

/-- The next step is a completion (40_control.md R102). -/
def State.completes (s : State) : Bool := s.turn == .engine && s.block.busy

/-- The word the next step writes at a window offset, if it writes one. -/
def State.writes (s : State) (off : Nat) : Option Word := s.turn.writes s.platform off

/-- The word is one of the six computing commands (R18 "Command"). -/
def isComputingWord (v : Word) : Bool := 1 ≤ v.toNat && v.toNat ≤ 6

/-- The word is illegal: a reserved bit or a reserved opcode (30_encoding.md R73, R74). -/
def isIllegalWord (v : Word) : Bool := 7 ≤ v.toNat

/-- The next step issues a command: a computing command's word written to CMD while not BUSY (40_control.md R101). -/
def State.issues (s : State) : Bool :=
  match s.writes 0x00 with
  | some v => isComputingWord v && !s.block.busy
  | none => false

/-! ### The invariant -/

/-- What the rules keep of the block:
an occupied latch holds an opcode of the six computing commands (10_state.md R40);
a command in flight has cleared DONE (R101, R103);
and with no command in flight and DONE 0 no command has completed since reset, so the results are the reset values (R27, R46). -/
structure Block.Inv (b : Block) : Prop where
  latchHoldsCommand : b.pendValid = true → 1 ≤ b.pendOp.toNat ∧ b.pendOp.toNat ≤ 6
  busyNotDone : b.pendValid = true → b.done = false
  noResultYet : b.pendValid = false → b.done = false → b.result = 0 ∧ b.valid = false ∧ b.dok = false

/-- The invariant of the machine is that of its block. -/
def State.Inv (s : State) : Prop := s.block.Inv

/-! ### Runs -/

/-- `k` steps of the machine. -/
def runSteps (k : Nat) (s : State) : Host.Outcome State Fault Refusal := Host.Core.run Sys2Proof.core k s

/-- The state with the given turns to come. -/
def State.withAgenda (s : State) (turns : List Turn) : State := { s with agenda := turns }

/-- A read of the word at a window offset. -/
def readTurn (p : Platform) (off : Nat) : Turn := .host (.read (p.base + off) 4)

/-- A write of a word at a window offset. -/
def writeTurn (p : Platform) (off : Nat) (v : Word) : Turn := .host (.write (p.base + off) (lanesOf v))

/-! ### What a block shows -/

/-- `b` with the four latch fields of `src` that are don't-care while no command is in flight (10_state.md R40): a
statement that fixes every other field of a block says `b' = (…).withLatchOf b'`. -/
def Block.withLatchOf (b src : Block) : Block :=
  { b with pendOp := src.pendOp, pendA := src.pendA, pendB := src.pendB, pendMsg := src.pendMsg }

/-! ### Terms of the codec's laws -/

/-- `q(x) * g(x)` over GF(2): the XOR of the generator shifted by every set bit of the quotient (41_syndrome.md R125). -/
def quotientTimesGen (q : BitVec 5) : Code :=
  (List.range 5).foldl (fun acc s => if q.getLsbD s then acc ^^^ genShifted s else acc) 0

/-- The table of single-bit syndromes of 41_syndrome.md R124: bits 0 to 9 map to themselves. -/
def singleBitSyndrome (i : Nat) : Syndrome :=
  if i = 10 then 311
  else if i = 11 then 622
  else if i = 12 then 491
  else if i = 13 then 982
  else if i = 14 then 667
  else 1#10 <<< i

/-- `m` is the unique message whose codeword is nearest to `r` (43_decoder.md R163). -/
def IsUniqueNearest (r : Code) (m : Message) : Prop :=
  ∀ m' : Message, m' ≠ m → distance r (bchEncode m) < distance r (bchEncode m')

end Sys2Proof.Machine
end

