-- ==== Sys2Proof/Certificates/Slice0/Obligations.lean ====
section
/-! DEFINITION. The statements for the provers, from the numbered rules of spec/. A host access is written as a turn of
the agenda, since the next step takes the agenda's first turn (log 1); every statement holds for every BASE. -/

open Sys2Proof Sys2Proof.Machine

/-! ### Encoding and decoding -/

/-- 30_encoding.md R75: the command decoder is total over all words and reads exactly the opcode map; every other word
is ILLEGAL, for a reserved bit (R73) or a reserved opcode (R74). -/
def Obligations.CommandDecoderIsTheOpcodeMap : Prop :=
  (∀ (v : Word) (i : Instr), decodeWord v = .ok i ↔
      (i, v) ∈ [(Instr.nop, 0x00000000#32), (Instr.syn, 0x00000001#32), (Instr.chk, 0x00000002#32),
        (Instr.enc, 0x00000003#32), (Instr.dec, 0x00000004#32), (Instr.dist, 0x00000005#32),
        (Instr.wgt, 0x00000006#32)]) ∧
    (∀ v : Word, decodeWord v = .error .reservedBits ↔ v.extractLsb' 4 28 ≠ 0) ∧
    ∀ v : Word, decodeWord v = .error .reservedOpcode ↔
      v.extractLsb' 4 28 = 0 ∧ 7 ≤ (v.extractLsb' 0 4).toNat

/-- Decoder and encoder agree on byte strings, both ways and for every instruction: a byte string decodes to a
well-formed instruction exactly when it is that instruction's encoding. -/
def Obligations.DecodedBytesAreExactlyTheEncoding : Prop :=
  ∀ (lanes : List Byte) (i : Instr), i.wellFormed = true → (decode lanes = .ok i ↔ lanes = encode i)

/-- Words of the opcode map (R72), as the bus carries them (20_memory.md R53), one for each family of commands. -/
def Obligations.OpcodeMapBytesDecode : Prop :=
  decode [0x00#8, 0x00#8, 0x00#8, 0x00#8] = .ok .nop ∧
    decode [0x02#8, 0x00#8, 0x00#8, 0x00#8] = .ok .chk ∧
    decode [0x03#8, 0x00#8, 0x00#8, 0x00#8] = .ok .enc ∧
    decode [0x04#8, 0x00#8, 0x00#8, 0x00#8] = .ok .dec ∧
    decode [0x05#8, 0x00#8, 0x00#8, 0x00#8] = .ok .dist ∧
    decode [0x00#8, 0x00#8, 0x00#8, 0x04#8] = .error .reservedBits

/-- 20_memory.md R53: byte lane k of a word carries its bits [8k+7:8k]; and four lanes are the word whose lanes they
are. -/
def Obligations.ByteLanesAreLittleEndian : Prop :=
  (∀ (v : Word) (k : Nat), k < 4 → (lanesOf v)[k]? = some (v.extractLsb' (8 * k) 8)) ∧
    ∀ (lanes : List Byte) (v : Word), wordOfLanes lanes = some v ↔ lanes = lanesOf v

/-- The table word that the decoder reads as an instruction, placed as the next CMD write, runs exactly that
instruction as the next step, with the bus's answer to the write noted (log 14). -/
def Obligations.FetchedTableWordRunsItsCommand : Prop :=
  ∀ (s : State) (nbits w : Nat) (i : Instr), decodeTableWord nbits w = some i →
    step (s.withFetchWord nbits w) = exec i { s with reply := .written }

/-- A step runs the decoded command: a write at CMD (10_state.md R24) whose bytes decode to an instruction is that
instruction's exec, with the turn taken off the agenda and the write answered. -/
def Obligations.StepRunsTheDecodedCommand : Prop :=
  ∀ (s : State) (rest : List Turn) (lanes : List Byte) (i : Instr),
    s.agenda = .host (.write s.platform.base lanes) :: rest → decode lanes = .ok i →
    step s = exec i { s with agenda := rest, reply := .written }

/-! ### Bus access -/

/-- 20_memory.md R54: a read in the window returns the register at its offset and changes nothing of the block, or gets
the bus error. The STATUS word is written out as in 10_state.md R25. -/
def Obligations.BusReadFollowsTheRegisterMap : Prop :=
  ∀ (s : State) (rest : List Turn) (off size : Nat), off < 64 →
    s.agenda = .host (.read (s.platform.base + off) size) :: rest →
    step s =
      if size = 4 ∧ off % 4 = 0 then
        .next { s with
          agenda := rest
          reply := .data (lanesOf
            (if off = 0x04 then
              BitVec.setWidth 32 (BitVec.ofBool s.block.ovr ++ BitVec.ofBool s.block.ill ++
                BitVec.ofBool s.block.dok ++ BitVec.ofBool s.block.valid ++ BitVec.ofBool s.block.done ++
                BitVec.ofBool s.block.pendValid)
            else if off = 0x08 then s.block.opa.setWidth 32
            else if off = 0x0C then s.block.opb.setWidth 32
            else if off = 0x10 then s.block.msg.setWidth 32
            else if off = 0x14 then s.block.result.setWidth 32
            else 0#32)) }
      else .refused (.busError (s.platform.base + off))

/-- 20_memory.md R55: a legal write in the window acts on the register at its offset alone, and any other write gets
the bus error. -/
def Obligations.BusWriteFollowsTheRegisterMap : Prop :=
  ∀ (s : State) (rest : List Turn) (off : Nat) (lanes : List Byte), off < 64 →
    s.agenda = .host (.write (s.platform.base + off) lanes) :: rest →
    (off % 4 = 0 → ∀ v : Word, lanes = lanesOf v →
      step s =
        if off = 0x00 then commandWrite v { s with agenda := rest, reply := .written }
        else .next { s with
          agenda := rest
          reply := .written
          block :=
            if off = 0x04 then
              { s.block with
                ill := if v.getLsbD 4 = true then false else s.block.ill
                ovr := if v.getLsbD 5 = true then false else s.block.ovr }
            else if off = 0x08 then { s.block with opa := v.extractLsb' 0 15 }
            else if off = 0x0C then { s.block with opb := v.extractLsb' 0 15 }
            else if off = 0x10 then { s.block with msg := v.extractLsb' 0 5 }
            else s.block }) ∧
    (¬(off % 4 = 0 ∧ lanes.length = 4) → step s = .refused (.busError (s.platform.base + off)))

/-- 20_memory.md R52: of the accesses in the window, exactly the 4-byte ones at offsets that are multiples of 4 are
performed; any other is refused with the bus error response. -/
def Obligations.OnlyAlignedWordAccessesArePerformed : Prop :=
  ∀ (s : State) (rest : List Turn) (a : Access), s.agenda = .host a :: rest →
    s.platform.base ≤ a.addr → a.addr < s.platform.base + 64 →
    ((∃ t, step s = .next t) ↔ a.size = 4 ∧ (a.addr - s.platform.base) % 4 = 0) ∧
      (¬(a.size = 4 ∧ (a.addr - s.platform.base) % 4 = 0) → step s = .refused (.busError a.addr))

/-- The model's choice (log 7, log 8): an access outside the window, which 20_memory.md R51 says is not the block's,
and an access while reset is asserted, whose response 70_reset_and_hazards.md R222 leaves unspecified, are refused. -/
def Obligations.AccessOutsideWindowOrInResetIsRefused : Prop :=
  ∀ (s : State) (rest : List Turn) (a : Access),
    (s.agenda = .host a :: rest → (a.addr < s.platform.base ∨ s.platform.base + 64 ≤ a.addr) →
      step s = .refused (.outsideWindow a.addr)) ∧
    (s.agenda = .reset (some a) :: rest → step s = .refused (.accessDuringReset a.addr))

/-- 20_memory.md R57, the writes that are idempotent: at every offset but CMD's, writing the same value twice equals
writing it once. -/
def Obligations.NonCommandWritesAreIdempotent : Prop :=
  ∀ (s : State) (rest : List Turn) (off : Nat) (v : Word), 0 < off → off < 64 → off % 4 = 0 →
    ∃ t, step (s.withAgenda (writeTurn s.platform off v :: rest)) = .next t ∧
      runSteps 2 (s.withAgenda (writeTurn s.platform off v :: writeTurn s.platform off v :: rest)) = .next t

/-- 20_memory.md R61, its first sentence: a read of OPA, OPB or MSG after a write to the same register returns the
written value masked (10_state.md R33 to R35), whatever served accesses and completions fall between, as long as none
of them writes that register and no reset is asserted. -/
def Obligations.OperandReadsBackMasked : Prop :=
  ∀ (s : State) (turns : List Turn) (off : Nat) (v : Word), s.Inv → off ∈ [0x08, 0x0C, 0x10] →
    (∀ t ∈ turns, t.served s.platform = true ∧ t.isReset = false ∧ t.writes s.platform off = none) →
    ∃ t, runSteps (turns.length + 2)
        (s.withAgenda (writeTurn s.platform off v :: (turns ++ [readTurn s.platform off]))) = .next t ∧
      t.reply = .data (lanesOf
        (if off = 0x10 then (v.extractLsb' 0 5).setWidth 32 else (v.extractLsb' 0 15).setWidth 32))

/-! ### The command write -/

/-- 40_control.md R107 with R100, R101, R104 and R105: for every state and every 32-bit word, exactly one outcome of a
CMD write, in the order illegal, NOP, overrun, issue, and nothing else changes. -/
def Obligations.CommandWriteHasOneOutcome : Prop :=
  ∀ (s : State) (rest : List Turn) (v : Word), s.agenda = writeTurn s.platform 0x00 v :: rest →
    step s = .next { s with
      agenda := rest
      reply := .written
      block :=
        if v.extractLsb' 4 28 ≠ 0 ∨ 7 ≤ (v.extractLsb' 0 4).toNat then { s.block with ill := true }
        else if v = 0 then s.block
        else if s.block.pendValid = true then { s.block with ovr := true }
        else
          { s.block with
            pendOp := v.extractLsb' 0 4
            pendA := s.block.opa
            pendB := s.block.opb
            pendMsg := s.block.msg
            pendValid := true
            done := false } }

/-- 40_control.md R106: NOP changes nothing, in any state, BUSY or not. -/
def Obligations.NopHasNoEffect : Prop :=
  (∀ s : State, exec .nop s = .next s) ∧
    ∀ (s : State) (rest : List Turn), s.agenda = writeTurn s.platform 0x00 0x00000000#32 :: rest →
      step s = .next { s with agenda := rest, reply := .written }

/-- 40_control.md R101: issue of each of the six computing commands, with BUSY = 0. -/
def Obligations.IdleEngineIssuesTheCommand : Prop :=
  ∀ (s : State) (c : Instr) (op : Opcode),
    (c, op) ∈ [(Instr.syn, 0x1#4), (Instr.chk, 0x2#4), (Instr.enc, 0x3#4), (Instr.dec, 0x4#4),
      (Instr.dist, 0x5#4), (Instr.wgt, 0x6#4)] →
    s.block.pendValid = false →
    exec c s = .next { s with
      block := { s.block with
        pendOp := op
        pendA := s.block.opa
        pendB := s.block.opb
        pendMsg := s.block.msg
        pendValid := true
        done := false } }

/-- 40_control.md R105: each of the six computing commands written while a command is in flight is dropped; its only
effect is OVR. -/
def Obligations.BusyEngineDropsTheCommand : Prop :=
  ∀ (s : State) (c : Instr), c ∈ [Instr.syn, .chk, .enc, .dec, .dist, .wgt] → s.block.pendValid = true →
    exec c s = .next { s with block := { s.block with ovr := true } }

/-! ### The commands, from issue to completion -/

/-- 41_syndrome.md R121: SYN's CMD word decodes to it; SYN on an idle engine issues, and its completion writes the syndrome of OPA to RESULT and its
zeroness to VALID; nothing else changes but DONE and the latch. -/
def Obligations.SynReportsTheSyndrome : Prop :=
  decodeWord 0x00000001#32 = .ok .syn ∧ ∀ (s : State) (rest : List Turn), s.block.pendValid = false →
    ∃ t u, exec .syn s = .next t ∧ step (t.withAgenda (.engine :: rest)) = .next u ∧
      u = { s with
        agenda := rest
        block := ({ s.block with
          done := true
          result := (bchRemainder s.block.opa).setWidth 15
          valid := decide (bchRemainder s.block.opa = 0) } : Block).withLatchOf u.block }

/-- 41_syndrome.md R122: CHK's CMD word decodes to it; CHK on an idle engine issues, and its completion writes to RESULT and to VALID whether the
syndrome of OPA is zero. -/
def Obligations.ChkReportsValidity : Prop :=
  decodeWord 0x00000002#32 = .ok .chk ∧ ∀ (s : State) (rest : List Turn), s.block.pendValid = false →
    ∃ t u, exec .chk s = .next t ∧ step (t.withAgenda (.engine :: rest)) = .next u ∧
      u = { s with
        agenda := rest
        block := ({ s.block with
          done := true
          result := if bchRemainder s.block.opa = 0 then 1 else 0
          valid := decide (bchRemainder s.block.opa = 0) } : Block).withLatchOf u.block }

/-- 42_encoder.md R142: ENC's CMD word decodes to it; ENC on an idle engine issues, and its completion writes the codeword of MSG to RESULT; no flag
but DONE is written. -/
def Obligations.EncReportsTheCodeword : Prop :=
  decodeWord 0x00000003#32 = .ok .enc ∧ ∀ (s : State) (rest : List Turn), s.block.pendValid = false →
    ∃ t u, exec .enc s = .next t ∧ step (t.withAgenda (.engine :: rest)) = .next u ∧
      u = { s with
        agenda := rest
        block := ({ s.block with done := true, result := bchEncode s.block.msg } : Block).withLatchOf u.block }

/-- 43_decoder.md R162: DEC's CMD word decodes to it; DEC on an idle engine issues, and its completion writes the tag to DOK and the message, or 0 on
Failure, to RESULT; VALID is not written. -/
def Obligations.DecReportsTagAndMessage : Prop :=
  decodeWord 0x00000004#32 = .ok .dec ∧ ∀ (s : State) (rest : List Turn), s.block.pendValid = false →
    ∃ t u, exec .dec s = .next t ∧ step (t.withAgenda (.engine :: rest)) = .next u ∧
      u = { s with
        agenda := rest
        block := ({ s.block with
          done := true
          dok := (bchDecode s.block.opa).1
          result := if (bchDecode s.block.opa).1 = true then (bchDecode s.block.opa).2.setWidth 15 else 0 } :
          Block).withLatchOf u.block }

/-- 44_distance.md R182: DIST's CMD word decodes to it; DIST on an idle engine issues, and its completion writes the Hamming distance of OPA and OPB
to RESULT; no flag but DONE is written. -/
def Obligations.DistReportsTheDistance : Prop :=
  decodeWord 0x00000005#32 = .ok .dist ∧ ∀ (s : State) (rest : List Turn), s.block.pendValid = false →
    ∃ t u, exec .dist s = .next t ∧ step (t.withAgenda (.engine :: rest)) = .next u ∧
      u = { s with
        agenda := rest
        block := ({ s.block with
          done := true
          result := BitVec.ofNat 15 (distance s.block.opa s.block.opb) } : Block).withLatchOf u.block }

/-- 44_distance.md R183: WGT's CMD word decodes to it; WGT on an idle engine issues, and its completion writes the Hamming weight of OPA to RESULT;
no flag but DONE is written. -/
def Obligations.WgtReportsTheWeight : Prop :=
  decodeWord 0x00000006#32 = .ok .wgt ∧ ∀ (s : State) (rest : List Turn), s.block.pendValid = false →
    ∃ t u, exec .wgt s = .next t ∧ step (t.withAgenda (.engine :: rest)) = .next u ∧
      u = { s with
        agenda := rest
        block := ({ s.block with
          done := true
          result := BitVec.ofNat 15 (popcount s.block.opa) } : Block).withLatchOf u.block }

/-! ### Completion and schedules -/

/-- 40_control.md R103, "No effect reads OPA, OPB or MSG; each reads only the latch": completions of two states that
differ in the operand registers give the same RESULT, VALID and DOK, and the same STATUS. -/
def Obligations.CompletionReadsOnlyTheLatch : Prop :=
  ∀ (s : State) (rest : List Turn) (a b : Code) (m : Message), s.Inv → s.block.pendValid = true →
    ∃ t u, step (s.withAgenda (.engine :: rest)) = .next t ∧
      step ({ s with block := { s.block with opa := a, opb := b, msg := m } }.withAgenda (.engine :: rest)) =
        .next u ∧
      u = { t with block := { t.block with opa := a, opb := b, msg := m } } ∧
      t.block.opa = s.block.opa ∧ t.block.opb = s.block.opb ∧ t.block.msg = s.block.msg

/-- The command in flight ignores the host: whatever served accesses the host makes between issue and completion
(operand writes, command writes, STATUS writes, reads), and however many, the results are those of a completion at
once (20_memory.md R64; 40_control.md R102, R104, R105; 70_reset_and_hazards.md R233). -/
def Obligations.CommandInFlightIgnoresHostAccesses : Prop :=
  ∀ (s : State) (c : Instr) (turns : List Turn), c ∈ [Instr.syn, .chk, .enc, .dec, .dist, .wgt] →
    s.block.pendValid = false → (∀ t ∈ turns, t.servedAccess s.platform = true) →
    ∃ t now later, exec c s = .next t ∧ step (t.withAgenda [.engine]) = .next now ∧
      runSteps (turns.length + 1) (t.withAgenda (turns ++ [.engine])) = .next later ∧
      later.block.result = now.block.result ∧ later.block.valid = now.block.valid ∧
      later.block.dok = now.block.dok ∧ later.block.done = true ∧ later.block.pendValid = false

/-- The host's polling is sound for every schedule (70_reset_and_hazards.md R230, 40_control.md R102, 20_memory.md
R60, R62): after an issue, let any served accesses and engine turns follow, with no further command word written to CMD
and no reset; where BUSY is 0 the results are those of a completion at once, and where BUSY is 1 they are still the
ones from before the issue. -/
def Obligations.PollingBusyFindsTheCommandsResult : Prop :=
  ∀ (s : State) (c : Instr) (turns : List Turn), c ∈ [Instr.syn, .chk, .enc, .dec, .dist, .wgt] →
    s.block.pendValid = false →
    (∀ t ∈ turns, t.served s.platform = true ∧ t.isReset = false ∧
      ∀ v, t.writes s.platform 0x00 = some v → isComputingWord v = false) →
    ∃ t now later, exec c s = .next t ∧ step (t.withAgenda [.engine]) = .next now ∧
      runSteps turns.length (t.withAgenda turns) = .next later ∧
      (later.block.pendValid = false →
        later.block.result = now.block.result ∧ later.block.valid = now.block.valid ∧
        later.block.dok = now.block.dok ∧ later.block.done = true) ∧
      (later.block.pendValid = true →
        later.block.result = s.block.result ∧ later.block.valid = s.block.valid ∧
        later.block.dok = s.block.dok ∧ later.block.done = false)

/-- Completion is guaranteed (40_control.md R102): from every state of the invariant whose coming turns are served, the
engine is quiescent one step after the last of them; an engine turn with no command in flight changes nothing. The end
of the agenda as the engine's turn is the model's choice (log 2, log 3). -/
def Obligations.EveryCommandInFlightCompletes : Prop :=
  (∀ s : State, s.Inv → (∀ t ∈ s.agenda, t.served s.platform = true) →
      ∃ t, runSteps (s.agenda.length + 1) s = .next t ∧ t.agenda = [] ∧ t.block.pendValid = false ∧ t.Inv) ∧
    ∀ (s : State) (rest : List Turn), s.agenda = .engine :: rest → s.block.pendValid = false →
      step s = .next { s with agenda := rest }

/-! ### What a step does to each register -/

/-- 10_state.md R26, with R25's columns: BUSY is set by issue, cleared by completion and by reset, and by nothing
else; and the host reads it as bit 0 of STATUS. -/
def Obligations.BusyFollowsIssueAndCompletion : Prop :=
  (∀ s t : State, step s = .next t →
      t.block.pendValid =
        if s.resets = true ∨ s.completes = true then false
        else if s.issues = true then true
        else s.block.pendValid) ∧
    ∀ s : State, (statusWord s.block).getLsbD 0 = s.block.pendValid

/-- 10_state.md R27: issue clears DONE, completion sets it, reset clears it, and no other step changes it. -/
def Obligations.DoneFollowsIssueAndCompletion : Prop :=
  ∀ s t : State, step s = .next t →
    t.block.done =
      if s.resets = true then false
      else if s.completes = true then true
      else if s.issues = true then false
      else s.block.done

/-- 10_state.md R28: completion of SYN or CHK writes VALID from the latched word, reset clears it, and no other step
changes it. -/
def Obligations.ValidIsWrittenBySynAndChkOnly : Prop :=
  ∀ s t : State, step s = .next t →
    t.block.valid =
      if s.resets = true then false
      else if s.completes = true ∧ (s.block.pendOp = 0x1 ∨ s.block.pendOp = 0x2) then
        decide (bchRemainder s.block.pendA = 0)
      else s.block.valid

/-- 10_state.md R29: completion of DEC writes DOK, reset clears it, and no other step changes it. -/
def Obligations.DokIsWrittenByDecOnly : Prop :=
  ∀ s t : State, step s = .next t →
    t.block.dok =
      if s.resets = true then false
      else if s.completes = true ∧ s.block.pendOp = 0x4 then (bchDecode s.block.pendA).1
      else s.block.dok

/-- 10_state.md R30: ILL is set by an illegal command write and stays set until the host writes 1 to bit 4 of STATUS or
resets. -/
def Obligations.IllIsSticky : Prop :=
  ∀ s t : State, step s = .next t →
    t.block.ill =
      if s.resets = true then false
      else if (s.writes 0x00).any isIllegalWord = true then true
      else if (s.writes 0x04).any (·.getLsbD 4) = true then false
      else s.block.ill

/-- 10_state.md R31: OVR is set by a command write dropped because BUSY was 1 and stays set until the host writes 1 to
bit 5 of STATUS or resets. -/
def Obligations.OvrIsSticky : Prop :=
  ∀ s t : State, step s = .next t →
    t.block.ovr =
      if s.resets = true then false
      else if (s.writes 0x00).any isComputingWord = true ∧ s.block.pendValid = true then true
      else if (s.writes 0x04).any (·.getLsbD 5) = true then false
      else s.block.ovr

/-- 10_state.md R33 to R35: OPA, OPB and MSG change only by a host write to them, masked to their width, and by
reset. -/
def Obligations.OperandsChangeOnlyByHostWrite : Prop :=
  ∀ s t : State, step s = .next t →
    (t.block.opa = if s.resets = true then 0 else ((s.writes 0x08).map (·.extractLsb' 0 15)).getD s.block.opa) ∧
    (t.block.opb = if s.resets = true then 0 else ((s.writes 0x0C).map (·.extractLsb' 0 15)).getD s.block.opb) ∧
    (t.block.msg = if s.resets = true then 0 else ((s.writes 0x10).map (·.extractLsb' 0 5)).getD s.block.msg)

/-- 10_state.md R38 with the commands' effects (R121, R122, R142, R162, R182, R183): only completion writes RESULT,
with the value of the latched command, and reset clears it. -/
def Obligations.ResultIsWrittenByCompletionOnly : Prop :=
  ∀ s t : State, step s = .next t →
    t.block.result =
      if s.resets = true then 0
      else if s.completes = true then
        (if s.block.pendOp = 0x1 then (bchRemainder s.block.pendA).setWidth 15
        else if s.block.pendOp = 0x2 then (if bchRemainder s.block.pendA = 0 then 1 else 0)
        else if s.block.pendOp = 0x3 then bchEncode s.block.pendMsg
        else if s.block.pendOp = 0x4 then
          (if (bchDecode s.block.pendA).1 = true then (bchDecode s.block.pendA).2.setWidth 15 else 0)
        else if s.block.pendOp = 0x5 then BitVec.ofNat 15 (distance s.block.pendA s.block.pendB)
        else BitVec.ofNat 15 (popcount s.block.pendA))
      else s.block.result

/-- The in-flight latch (10_state.md R40; 40_control.md R101, R105): issue fills it, and while a command stays in
flight no step changes what it holds. -/
def Obligations.LatchIsFilledAtIssueAndHeld : Prop :=
  ∀ s t : State, step s = .next t → t.block.pendValid = true →
    t.block.pendA = (if s.issues = true then s.block.opa else s.block.pendA) ∧
    t.block.pendB = (if s.issues = true then s.block.opb else s.block.pendB) ∧
    t.block.pendMsg = (if s.issues = true then s.block.msg else s.block.pendMsg) ∧
    t.block.pendOp =
      (if s.issues = true then ((s.writes 0x00).map (·.extractLsb' 0 4)).getD 0 else s.block.pendOp)

/-- Results appear at completion and never in part (10_state.md R41): where a step with no reset changes RESULT, VALID
or DOK, that same step clears BUSY and sets DONE. -/
def Obligations.ResultsChangeOnlyAtCompletion : Prop :=
  ∀ s t : State, step s = .next t → s.resets = false →
    (t.block.result ≠ s.block.result ∨ t.block.valid ≠ s.block.valid ∨ t.block.dok ≠ s.block.dok) →
    s.block.pendValid = true ∧ t.block.pendValid = false ∧ t.block.done = true

/-- The model's own fields: no step moves the window, every step takes one turn, and only a host access changes the
last reply (log 1, log 4, log 11). -/
def Obligations.StepTakesOneTurnAndKeepsThePlatform : Prop :=
  ∀ s t : State, step s = .next t →
    t.platform = s.platform ∧ t.agenda = s.agenda.tail ∧
      ((∀ a, s.turn ≠ .host a) → t.reply = s.reply)

/-! ### Invariant, progress, reset -/

/-- Every step keeps the invariant: an occupied latch holds a computing command's opcode (10_state.md R40), BUSY and
DONE are never 1 together (R101, R103), and with both 0 the results are the reset values (R27, R46). -/
def Obligations.EveryStepKeepsTheInvariant : Prop :=
  ∀ s t : State, s.Inv → step s = .next t → t.Inv

/-- The state after reset meets the invariant. -/
def Obligations.InvariantHoldsAtReset : Prop := State.reset.Inv

/-- 60_exceptions.md R200: in every state of the invariant every legal access, every engine turn and every reset
completes, and no step faults; the only steps without a next state are the accesses that R202 and R222 refuse and those
outside the window. -/
def Obligations.EngineNeverTrapsAndNeverStops : Prop :=
  ∀ s : State, s.Inv →
    ((∃ t, step s = .next t) ↔ s.turn.served s.platform = true) ∧ ∀ f, step s ≠ .fault f

/-- 10_state.md R46: the value of every state element in the state after reset, the don't-care latch fields left out,
and so every readable offset reads 0x00000000. -/
def Obligations.ResetValuesOfEveryRegister : Prop :=
  State.reset.block = (Block.withLatchOf
    { done := false, valid := false, dok := false, ill := false, ovr := false, opa := 0, opb := 0, msg := 0,
      result := 0, pendValid := false, pendOp := 0, pendA := 0, pendB := 0, pendMsg := 0 } State.reset.block) ∧
    ∀ off : Nat, off < 64 → off % 4 = 0 → readReg (regAt off) State.reset.block = 0x00000000#32

/-- 70_reset_and_hazards.md R220: from any state one reset turn gives every register its reset value and abandons the
command in flight, which never completes: with no command written afterwards, no later turn shows a result. No command
performs a reset: after any of them the operand registers, the results and the flags VALID and DOK are as before. -/
def Obligations.ResetClearsAndAbandons : Prop :=
  ∀ s : State,
    (∀ rest, s.agenda = .reset none :: rest →
      ∃ t, step s = .next t ∧
        t = { s with
          agenda := rest
          block := ({ s.block with
            pendValid := false, done := false, valid := false, dok := false, ill := false, ovr := false,
            opa := 0, opb := 0, msg := 0, result := 0 } : Block).withLatchOf t.block }) ∧
    (∀ c : Instr, ∃ t, exec c s = .next t ∧ t.block.opa = s.block.opa ∧ t.block.opb = s.block.opb ∧
      t.block.msg = s.block.msg ∧ t.block.result = s.block.result ∧ t.block.valid = s.block.valid ∧
      t.block.dok = s.block.dok) ∧
    ∀ turns : List Turn,
      (∀ t ∈ turns, t.served s.platform = true ∧
        ∀ v, t.writes s.platform 0x00 = some v → isComputingWord v = false) →
      ∃ t, runSteps (turns.length + 1) (s.withAgenda (.reset none :: turns)) = .next t ∧
        t.block.pendValid = false ∧ t.block.done = false ∧ t.block.result = 0 ∧ t.block.valid = false ∧
        t.block.dok = false

/-- 70_reset_and_hazards.md R221: after a reset of any state, every readable offset reads 0x00000000, and BUSY, DONE,
ILL and OVR are 0. -/
def Obligations.AfterResetEveryOffsetReadsZero : Prop :=
  ∀ (s : State) (off : Nat), off < 64 → off % 4 = 0 →
    ∃ t, runSteps 2 (s.withAgenda [.reset none, readTurn s.platform off]) = .next t ∧
      t.reply = .data (lanesOf 0x00000000#32) ∧ t.block.pendValid = false ∧ t.block.done = false ∧
      t.block.ill = false ∧ t.block.ovr = false

/-- 70_reset_and_hazards.md R232 for a word other than NOP: with ILL and OVR 0 before a CMD write, and no write of CMD
or STATUS and no reset after it, they are still 0 where the host sees BUSY = 0 exactly if the write issued and
completed; if either is 1 the write did not issue. -/
def Obligations.ClearErrorFlagsConfirmTheIssue : Prop :=
  ∀ (s t : State) (v : Word) (turns : List Turn), s.Inv → s.block.ill = false → s.block.ovr = false → v ≠ 0 →
    (∀ x ∈ turns, x.served s.platform = true ∧ x.isReset = false ∧ x.writes s.platform 0x00 = none ∧
      x.writes s.platform 0x04 = none) →
    runSteps (turns.length + 1) (s.withAgenda (writeTurn s.platform 0x00 v :: turns)) = .next t →
    t.block.pendValid = false →
    ((t.block.ill = false ∧ t.block.ovr = false) ↔
      (isComputingWord v = true ∧ s.block.pendValid = false)) ∧
    (isComputingWord v = true ∧ s.block.pendValid = false → t.block.done = true)

/-! ### The divider -/

/-- 41_syndrome.md R123: step s clears bit s + 10 and touches no higher bit, so after the five steps the accumulator's
bits [14:10] are all zero and the remainder is the whole accumulator. -/
def Obligations.DividerClearsTheHighBits : Prop :=
  (∀ (acc : Code) (s : Nat), s ≤ 4 → (divStep acc s).getLsbD (s + 10) = false ∧
      ∀ j, s + 10 < j → (divStep acc s).getLsbD j = acc.getLsbD j) ∧
    ∀ v : Code, divAccumulator v >>> 10 = 0 ∧ divAccumulator v = (bchRemainder v).setWidth 15 ∧
      (bchRemainder v).toNat ≤ 0x3FF

/-- 41_syndrome.md R124: Remainder is linear over GF(2), its values at single bits are the table's, and it is the XOR
of the table's entries over the set bits of its argument. -/
def Obligations.RemainderIsLinear : Prop :=
  (∀ a b : Code, bchRemainder (a ^^^ b) = bchRemainder a ^^^ bchRemainder b) ∧
    (∀ i, i < 15 → bchRemainder (1#15 <<< i) = singleBitSyndrome i) ∧
    ∀ v : Code, bchRemainder v =
      (List.range 15).foldl (fun acc i => if v.getLsbD i then acc ^^^ singleBitSyndrome i else acc) 0

/-- 41_syndrome.md R125: Remainder is the polynomial remainder: there is exactly one quotient, and the remainder is
zero exactly where the generator divides the word. -/
def Obligations.RemainderIsThePolynomialRemainder : Prop :=
  ∀ v : Code,
    (∃ q : BitVec 5, v = quotientTimesGen q ^^^ (bchRemainder v).setWidth 15 ∧
      ∀ q' : BitVec 5, v = quotientTimesGen q' ^^^ (bchRemainder v).setWidth 15 → q' = q) ∧
    (bchRemainder v = 0 ↔ ∃ q : BitVec 5, v = quotientTimesGen q)

/-- 41_syndrome.md R126 with 42_encoder.md R143, and R127: the words of zero syndrome are exactly the 32 distinct
encoder outputs, and flipping any one bit of a codeword gives that bit's syndrome, which is not zero. -/
def Obligations.ZeroSyndromeMeansCodeword : Prop :=
  (∀ v : Code, bchRemainder v = 0 ↔ ∃ m : Message, bchEncode m = v) ∧
    (∀ m m' : Message, bchEncode m = bchEncode m' → m = m') ∧
    ∀ (v : Code) (i : Nat), bchRemainder v = 0 → i < 15 →
      bchRemainder (v ^^^ 1#15 <<< i) = bchRemainder (1#15 <<< i) ∧ bchRemainder (v ^^^ 1#15 <<< i) ≠ 0

/-! ### The encoder -/

/-- 42_encoder.md R141: the encoder is systematic, and every codeword has remainder zero. -/
def Obligations.EncoderIsSystematic : Prop :=
  ∀ m : Message, bchEncode m = m ++ bchRemainder (m ++ 0#10) ∧ bchRemainder (bchEncode m) = 0

/-- 42_encoder.md R144: the encoder is linear, the code is closed under complement, and the weights of the codewords
are one 0, fifteen 7s, fifteen 8s and one 15. -/
def Obligations.EncoderIsLinear : Prop :=
  (∀ a b : Message, bchEncode (a ^^^ b) = bchEncode a ^^^ bchEncode b) ∧
    bchEncode 0 = 0 ∧ bchEncode 31 = 0x7FFF ∧
    (∀ m : Message, bchEncode (m ^^^ 31) = bchEncode m ^^^ 0x7FFF) ∧
    (candidates.map fun m => popcount (bchEncode m)).count 0 = 1 ∧
    (candidates.map fun m => popcount (bchEncode m)).count 7 = 15 ∧
    (candidates.map fun m => popcount (bchEncode m)).count 8 = 15 ∧
    (candidates.map fun m => popcount (bchEncode m)).count 15 = 1

/-! ### The comparator -/

/-- 44_distance.md R180 and R181: Popcount is the number of set bits, at most 15, and Distance the number of bits in
which two words differ. -/
def Obligations.DistanceCountsDifferingBits : Prop :=
  (∀ x : Code, popcount x = (List.range 15).countP (fun i => x.getLsbD i) ∧ popcount x ≤ 15) ∧
    ∀ a b : Code, distance a b = (List.range 15).countP (fun i => a.getLsbD i != b.getLsbD i)

/-- 44_distance.md R184: every count fits RESULT's low 4 bits, and Popcount is additive up to the common bits. -/
def Obligations.PopcountIsAdditive : Prop :=
  (∀ a : Code, popcount a < 16) ∧
    ∀ a b : Code, popcount a + popcount b = popcount (a ^^^ b) + 2 * popcount (a &&& b)

/-- 44_distance.md R185: Distance is a metric on 15-bit words, invariant under XOR with a common word. -/
def Obligations.DistanceIsAMetric : Prop :=
  (∀ a b : Code, distance a b = 0 ↔ a = b) ∧ (∀ a b : Code, distance a b = distance b a) ∧
    (∀ a b c : Code, distance a c ≤ distance a b + distance b c) ∧
    ∀ a b w : Code, distance (a ^^^ w) (b ^^^ w) = distance a b

/-- 44_distance.md R186: any two distinct codewords (words of zero syndrome) differ in at least 7 bits, and from each
codeword the others lie at distances 7 (15 of them), 8 (15) and 15 (one). -/
def Obligations.MinimumDistanceIsSeven : Prop :=
  (∀ a b : Code, bchRemainder a = 0 → bchRemainder b = 0 → a ≠ b → 7 ≤ distance a b) ∧
    ∀ a : Code, bchRemainder a = 0 →
      (candidates.map fun m => distance a (bchEncode m)).count 7 = 15 ∧
      (candidates.map fun m => distance a (bchEncode m)).count 8 = 15 ∧
      (candidates.map fun m => distance a (bchEncode m)).count 15 = 1

/-! ### The decoder -/

/-- 43_decoder.md R161, the exact points of the policy: the initial best is a Failure at minimum 15, the candidates are 0
to 31 in increasing order, a smaller distance is a new best, an equal one a Failure that keeps the minimum, a larger one
changes nothing, and the result is the best after all of them. -/
def Obligations.DecoderFollowsTheTieBreakPolicy : Prop :=
  decodeStart.ok = false ∧ decodeStart.minD = 15 ∧ candidates.map BitVec.toNat = List.range 32 ∧
    (∀ (r : Code) (run : DecodeRun) (m : Message),
      (distance r (bchEncode m) < run.minD →
        decodeCandidate r run m = { ok := true, msg := m, minD := distance r (bchEncode m) }) ∧
      (distance r (bchEncode m) = run.minD →
        (decodeCandidate r run m).ok = false ∧ (decodeCandidate r run m).minD = run.minD) ∧
      (run.minD < distance r (bchEncode m) → decodeCandidate r run m = run)) ∧
    ∀ r : Code, (bchDecode r).1 = (candidates.foldl (decodeCandidate r) decodeStart).ok ∧
      ((bchDecode r).1 = true → (bchDecode r).2 = (candidates.foldl (decodeCandidate r) decodeStart).msg)

/-- 43_decoder.md R163: the decoder's literal policy finds exactly the unique nearest message, and Failure where there
is none; so the result does not depend on the candidate order. -/
def Obligations.DecoderFindsTheUniqueNearestMessage : Prop :=
  ∀ r : Code, (∀ m : Message, bchDecode r = (true, m) ↔ IsUniqueNearest r m) ∧
    ((bchDecode r).1 = false ↔ ¬∃ m : Message, IsUniqueNearest r m)

/-- 43_decoder.md R164, without its counts: some codeword is within distance 5 of every word, and decoding succeeds
exactly where one is within distance 3. -/
def Obligations.DecoderSucceedsWithinRadiusThree : Prop :=
  ∀ r : Code, (∃ m : Message, distance r (bchEncode m) ≤ 5) ∧
    ((bchDecode r).1 = true ↔ ∃ m : Message, distance r (bchEncode m) ≤ 3)

/-- 43_decoder.md R165: every error pattern of at most 3 bits is corrected, for every message. -/
def Obligations.ThreeErrorsAreCorrected : Prop :=
  ∀ (m : Message) (e : Code), popcount e ≤ 3 → bchDecode (bchEncode m ^^^ e) = (true, m)

/-- 43_decoder.md R166: a real distance equals the sentinel 15 exactly at the complement of a codeword, which is itself
a codeword and decodes to its own message. -/
def Obligations.SentinelTieChangesNoResult : Prop :=
  ∀ (r : Code) (m : Message),
    (distance r (bchEncode m) = 15 ↔ r = bchEncode m ^^^ 0x7FFF) ∧
    (r = bchEncode m ^^^ 0x7FFF ↔ r = bchEncode (m ^^^ 31)) ∧
    (distance r (bchEncode m) = 15 →
      (decodeCandidate r decodeStart m).ok = false ∧ bchDecode r = (true, m ^^^ 31))

/-- 43_decoder.md R167, its first sentence: decoding commutes with adding a codeword. -/
def Obligations.DecoderCommutesWithCodewords : Prop :=
  ∀ (r : Code) (m : Message), (bchDecode (r ^^^ bchEncode m)).1 = (bchDecode r).1 ∧
    ((bchDecode r).1 = true → (bchDecode (r ^^^ bchEncode m)).2 = (bchDecode r).2 ^^^ m)
end

