-- ==== Sys2Proof/HostSyntax.lean ====
section
/-! DEFINITION. The host-program notation of 30_encoding.md R79 and the pseudo-instructions of R80. The notation's
control flow (labels, bnz, bz, the stop line) belongs to the host (R5 (a), R21, R108): it is written down here as text, and
only the two access lines act on the block. -/

namespace Sys2Proof.HostSyntax

open Sys2Proof.Machine

/-- A register operand of an access line: a register's name or a numeric offset (R79). -/
inductive RegName where
  | cmd | status | opa | opb | msg | result
  | offset (off : Nat)
deriving DecidableEq, Repr

/-- `off(REG)`: the offsets of 10_state.md R23. -/
def RegName.off (r : RegName) : Nat :=
  match r with
  | .cmd => 0x00
  | .status => 0x04
  | .opa => 0x08
  | .opb => 0x0C
  | .msg => 0x10
  | .result => 0x14
  | .offset off => off

/-- The value of a write line: a number, a mnemonic standing for its CMD word, or a name bound by a read (R79). -/
inductive HostValue where
  | number (v : Word)
  | mnemonic (i : Instr)
  | bound (name : String)
deriving DecidableEq, Repr

/-- One line of a host program (R79). -/
inductive HostLine where
  /-- `wr REG, value` -/
  | wr (r : RegName) (v : HostValue)
  /-- `rd REG -> name` -/
  | rd (r : RegName) (name : String)
  /-- `label:` -/
  | label (name : String)
  /-- `bnz name, MASK, label` -/
  | bnz (name : String) (mask : Word) (target : String)
  /-- `bz name, MASK, label` -/
  | bz (name : String) (mask : Word) (target : String)
  /-- `end` -/
  | stop
deriving DecidableEq, Repr

/-- The pseudo-instructions of R80; the label and the name of `wait` are local to each expansion, so they are given. -/
inductive Pseudo where
  | issue (i : Instr)
  | wait (w s : String)
  | run (i : Instr) (w s : String)
  | clrerr
  | setop (a b : Word)
deriving DecidableEq, Repr

/-- `wait`: read STATUS until BUSY is 0 (R80). -/
def waitLines (w s : String) : List HostLine := [.label w, .rd .status s, .bnz s 0x1#32 w]

/-- The expansions of R80. -/
def Pseudo.expand (p : Pseudo) : List HostLine :=
  match p with
  | .issue i => [.wr .cmd (.mnemonic i)]
  | .wait w s => waitLines w s
  | .run i w s => .wr .cmd (.mnemonic i) :: waitLines w s
  | .clrerr => [.wr .status (.number 0x30#32)]
  | .setop a b => [.wr .opa (.number a), .wr .opb (.number b)]

/-- The word a value stands for under the host's bindings; none for a name the host has not bound (R79). -/
def HostValue.word (env : List (String × Word)) (v : HostValue) : Option Word :=
  match v with
  | .number w => some w
  | .mnemonic i => some (encodeWord i)
  | .bound name => env.lookup name

/-- The bus access of a line: `wr` is a legal 32-bit write and `rd` a legal 32-bit read at `BASE + off(REG)`; the
control-flow lines make no access (R79). -/
def HostLine.access (p : Platform) (env : List (String × Word)) (l : HostLine) : Option Access :=
  match l with
  | .wr r v => (v.word env).map fun w => .write (p.base + r.off) (lanesOf w)
  | .rd r _ => some (.read (p.base + r.off) accessBytes)
  | .label _ => none
  | .bnz _ _ _ => none
  | .bz _ _ _ => none
  | .stop => none

/-- Whether the host branches at a `bnz` or `bz` line, for the value its name is bound to (R79). -/
def HostLine.branches (l : HostLine) (x : Word) : Bool :=
  match l with
  | .bnz _ mask _ => x &&& mask != 0
  | .bz _ mask _ => x &&& mask == 0
  | .wr _ _ => false
  | .rd _ _ => false
  | .label _ => false
  | .stop => false

end Sys2Proof.HostSyntax
end

