-- ==== Sys2Proof/Laws/Codec.lean ====
section
/-! SUPPORT. Small lemmas of the codec's functions: one step of the divider is linear, one candidate of the decoder keeps
the minimum. -/

namespace Sys2Proof.Machine

/-- One conditional subtraction is linear over GF(2) (41_syndrome.md R124's first reason). -/
theorem divStep_xor (a b : Code) (s : Nat) : divStep (a ^^^ b) s = divStep a s ^^^ divStep b s := by
  unfold divStep
  rw [BitVec.getLsbD_xor]
  have hcancel : a ^^^ b = (a ^^^ genShifted s) ^^^ (b ^^^ genShifted s) := by
    rw [BitVec.xor_assoc, ← BitVec.xor_assoc (genShifted s), BitVec.xor_comm (genShifted s) b,
      BitVec.xor_assoc b, BitVec.xor_self, BitVec.xor_zero]
  cases ha : a.getLsbD (s + 10) <;> cases hb : b.getLsbD (s + 10) <;> simp
  · rw [BitVec.xor_assoc]
  · rw [BitVec.xor_assoc, BitVec.xor_assoc, BitVec.xor_comm b]
  · exact hcancel

theorem distance_self (a : Code) : distance a a = 0 := by
  unfold distance
  rw [BitVec.xor_self]
  decide

/-- One candidate makes the running minimum the smaller of itself and the candidate's distance (43_decoder.md R160). -/
theorem decodeCandidate_minD (r : Code) (run : DecodeRun) (m : Message) :
    (decodeCandidate r run m).minD = min run.minD (distance r (bchEncode m)) := by
  unfold decodeCandidate
  dsimp only
  split
  · rw [Nat.min_eq_right (by omega)]
  · split <;> rw [Nat.min_eq_left (by omega)]

/-- The three outcomes of one candidate (R160, R161). -/
theorem decodeCandidate_of_lt {r : Code} {run : DecodeRun} {m : Message}
    (h : distance r (bchEncode m) < run.minD) :
    decodeCandidate r run m = { ok := true, msg := m, minD := distance r (bchEncode m) } := by
  simp [decodeCandidate, h]

theorem decodeCandidate_of_eq {r : Code} {run : DecodeRun} {m : Message}
    (h : distance r (bchEncode m) = run.minD) : decodeCandidate r run m = { run with ok := false } := by
  simp [decodeCandidate, h]

theorem decodeCandidate_of_gt {r : Code} {run : DecodeRun} {m : Message}
    (h : run.minD < distance r (bchEncode m)) : decodeCandidate r run m = run := by
  unfold decodeCandidate
  dsimp only
  rw [if_neg (by omega), if_neg (by simp; omega)]

end Sys2Proof.Machine
end

