-- ==== Sys2Proof/Laws/State.lean ====
section
/-! SUPPORT. One lemma per field for every update of the block and of the state, so that no later proof unfolds a record
update. -/

namespace Sys2Proof.Machine

/-! ### Updates of the state -/

@[simp] theorem State.onBlock_block (f : Block → Block) (s : State) : (s.onBlock f).block = f s.block := rfl
@[simp] theorem State.onBlock_platform (f : Block → Block) (s : State) : (s.onBlock f).platform = s.platform := rfl
@[simp] theorem State.onBlock_agenda (f : Block → Block) (s : State) : (s.onBlock f).agenda = s.agenda := rfl
@[simp] theorem State.onBlock_reply (f : Block → Block) (s : State) : (s.onBlock f).reply = s.reply := rfl

@[simp] theorem State.replied_block (r : Reply) (s : State) : (s.replied r).block = s.block := rfl
@[simp] theorem State.replied_platform (r : Reply) (s : State) : (s.replied r).platform = s.platform := rfl
@[simp] theorem State.replied_agenda (r : Reply) (s : State) : (s.replied r).agenda = s.agenda := rfl
@[simp] theorem State.replied_reply (r : Reply) (s : State) : (s.replied r).reply = r := rfl

@[simp] theorem State.withAgenda_block (s : State) (turns : List Turn) : (s.withAgenda turns).block = s.block := rfl
@[simp] theorem State.withAgenda_platform (s : State) (turns : List Turn) : (s.withAgenda turns).platform = s.platform := rfl
@[simp] theorem State.withAgenda_agenda (s : State) (turns : List Turn) : (s.withAgenda turns).agenda = turns := rfl
@[simp] theorem State.withAgenda_reply (s : State) (turns : List Turn) : (s.withAgenda turns).reply = s.reply := rfl

/-! ### Updates of the block -/

@[simp] theorem recordIllegal_done (b : Block) : (recordIllegal b).done = b.done := rfl
@[simp] theorem recordIllegal_valid (b : Block) : (recordIllegal b).valid = b.valid := rfl
@[simp] theorem recordIllegal_dok (b : Block) : (recordIllegal b).dok = b.dok := rfl
@[simp] theorem recordIllegal_ill (b : Block) : (recordIllegal b).ill = true := rfl
@[simp] theorem recordIllegal_ovr (b : Block) : (recordIllegal b).ovr = b.ovr := rfl
@[simp] theorem recordIllegal_opa (b : Block) : (recordIllegal b).opa = b.opa := rfl
@[simp] theorem recordIllegal_opb (b : Block) : (recordIllegal b).opb = b.opb := rfl
@[simp] theorem recordIllegal_msg (b : Block) : (recordIllegal b).msg = b.msg := rfl
@[simp] theorem recordIllegal_result (b : Block) : (recordIllegal b).result = b.result := rfl
@[simp] theorem recordIllegal_pendValid (b : Block) : (recordIllegal b).pendValid = b.pendValid := rfl
@[simp] theorem recordIllegal_pendOp (b : Block) : (recordIllegal b).pendOp = b.pendOp := rfl
@[simp] theorem recordIllegal_pendA (b : Block) : (recordIllegal b).pendA = b.pendA := rfl
@[simp] theorem recordIllegal_pendB (b : Block) : (recordIllegal b).pendB = b.pendB := rfl
@[simp] theorem recordIllegal_pendMsg (b : Block) : (recordIllegal b).pendMsg = b.pendMsg := rfl

@[simp] theorem recordOverrun_done (b : Block) : (recordOverrun b).done = b.done := rfl
@[simp] theorem recordOverrun_valid (b : Block) : (recordOverrun b).valid = b.valid := rfl
@[simp] theorem recordOverrun_dok (b : Block) : (recordOverrun b).dok = b.dok := rfl
@[simp] theorem recordOverrun_ill (b : Block) : (recordOverrun b).ill = b.ill := rfl
@[simp] theorem recordOverrun_ovr (b : Block) : (recordOverrun b).ovr = true := rfl
@[simp] theorem recordOverrun_opa (b : Block) : (recordOverrun b).opa = b.opa := rfl
@[simp] theorem recordOverrun_opb (b : Block) : (recordOverrun b).opb = b.opb := rfl
@[simp] theorem recordOverrun_msg (b : Block) : (recordOverrun b).msg = b.msg := rfl
@[simp] theorem recordOverrun_result (b : Block) : (recordOverrun b).result = b.result := rfl
@[simp] theorem recordOverrun_pendValid (b : Block) : (recordOverrun b).pendValid = b.pendValid := rfl
@[simp] theorem recordOverrun_pendOp (b : Block) : (recordOverrun b).pendOp = b.pendOp := rfl
@[simp] theorem recordOverrun_pendA (b : Block) : (recordOverrun b).pendA = b.pendA := rfl
@[simp] theorem recordOverrun_pendB (b : Block) : (recordOverrun b).pendB = b.pendB := rfl
@[simp] theorem recordOverrun_pendMsg (b : Block) : (recordOverrun b).pendMsg = b.pendMsg := rfl

@[simp] theorem issue_done (op : Opcode) (b : Block) : (issue op b).done = false := rfl
@[simp] theorem issue_valid (op : Opcode) (b : Block) : (issue op b).valid = b.valid := rfl
@[simp] theorem issue_dok (op : Opcode) (b : Block) : (issue op b).dok = b.dok := rfl
@[simp] theorem issue_ill (op : Opcode) (b : Block) : (issue op b).ill = b.ill := rfl
@[simp] theorem issue_ovr (op : Opcode) (b : Block) : (issue op b).ovr = b.ovr := rfl
@[simp] theorem issue_opa (op : Opcode) (b : Block) : (issue op b).opa = b.opa := rfl
@[simp] theorem issue_opb (op : Opcode) (b : Block) : (issue op b).opb = b.opb := rfl
@[simp] theorem issue_msg (op : Opcode) (b : Block) : (issue op b).msg = b.msg := rfl
@[simp] theorem issue_result (op : Opcode) (b : Block) : (issue op b).result = b.result := rfl
@[simp] theorem issue_pendValid (op : Opcode) (b : Block) : (issue op b).pendValid = true := rfl
@[simp] theorem issue_pendOp (op : Opcode) (b : Block) : (issue op b).pendOp = op := rfl
@[simp] theorem issue_pendA (op : Opcode) (b : Block) : (issue op b).pendA = b.opa := rfl
@[simp] theorem issue_pendB (op : Opcode) (b : Block) : (issue op b).pendB = b.opb := rfl
@[simp] theorem issue_pendMsg (op : Opcode) (b : Block) : (issue op b).pendMsg = b.msg := rfl

@[simp] theorem finish_done (b : Block) : (finish b).done = true := rfl
@[simp] theorem finish_valid (b : Block) : (finish b).valid = b.valid := rfl
@[simp] theorem finish_dok (b : Block) : (finish b).dok = b.dok := rfl
@[simp] theorem finish_ill (b : Block) : (finish b).ill = b.ill := rfl
@[simp] theorem finish_ovr (b : Block) : (finish b).ovr = b.ovr := rfl
@[simp] theorem finish_opa (b : Block) : (finish b).opa = b.opa := rfl
@[simp] theorem finish_opb (b : Block) : (finish b).opb = b.opb := rfl
@[simp] theorem finish_msg (b : Block) : (finish b).msg = b.msg := rfl
@[simp] theorem finish_result (b : Block) : (finish b).result = b.result := rfl
@[simp] theorem finish_pendValid (b : Block) : (finish b).pendValid = false := rfl
@[simp] theorem finish_pendOp (b : Block) : (finish b).pendOp = b.pendOp := rfl
@[simp] theorem finish_pendA (b : Block) : (finish b).pendA = b.pendA := rfl
@[simp] theorem finish_pendB (b : Block) : (finish b).pendB = b.pendB := rfl
@[simp] theorem finish_pendMsg (b : Block) : (finish b).pendMsg = b.pendMsg := rfl

@[simp] theorem Block.applyReset_done (b : Block) : (Block.applyReset b).done = false := rfl
@[simp] theorem Block.applyReset_valid (b : Block) : (Block.applyReset b).valid = false := rfl
@[simp] theorem Block.applyReset_dok (b : Block) : (Block.applyReset b).dok = false := rfl
@[simp] theorem Block.applyReset_ill (b : Block) : (Block.applyReset b).ill = false := rfl
@[simp] theorem Block.applyReset_ovr (b : Block) : (Block.applyReset b).ovr = false := rfl
@[simp] theorem Block.applyReset_opa (b : Block) : (Block.applyReset b).opa = 0 := rfl
@[simp] theorem Block.applyReset_opb (b : Block) : (Block.applyReset b).opb = 0 := rfl
@[simp] theorem Block.applyReset_msg (b : Block) : (Block.applyReset b).msg = 0 := rfl
@[simp] theorem Block.applyReset_result (b : Block) : (Block.applyReset b).result = 0 := rfl
@[simp] theorem Block.applyReset_pendValid (b : Block) : (Block.applyReset b).pendValid = false := rfl
@[simp] theorem Block.applyReset_pendOp (b : Block) : (Block.applyReset b).pendOp = b.pendOp := rfl
@[simp] theorem Block.applyReset_pendA (b : Block) : (Block.applyReset b).pendA = b.pendA := rfl
@[simp] theorem Block.applyReset_pendB (b : Block) : (Block.applyReset b).pendB = b.pendB := rfl
@[simp] theorem Block.applyReset_pendMsg (b : Block) : (Block.applyReset b).pendMsg = b.pendMsg := rfl

@[simp] theorem writeStatus_done (v : Word) (b : Block) : (writeStatus v b).done = b.done := rfl
@[simp] theorem writeStatus_valid (v : Word) (b : Block) : (writeStatus v b).valid = b.valid := rfl
@[simp] theorem writeStatus_dok (v : Word) (b : Block) : (writeStatus v b).dok = b.dok := rfl
@[simp] theorem writeStatus_ill (v : Word) (b : Block) : (writeStatus v b).ill = (b.ill && !v.getLsbD 4) := rfl
@[simp] theorem writeStatus_ovr (v : Word) (b : Block) : (writeStatus v b).ovr = (b.ovr && !v.getLsbD 5) := rfl
@[simp] theorem writeStatus_opa (v : Word) (b : Block) : (writeStatus v b).opa = b.opa := rfl
@[simp] theorem writeStatus_opb (v : Word) (b : Block) : (writeStatus v b).opb = b.opb := rfl
@[simp] theorem writeStatus_msg (v : Word) (b : Block) : (writeStatus v b).msg = b.msg := rfl
@[simp] theorem writeStatus_result (v : Word) (b : Block) : (writeStatus v b).result = b.result := rfl
@[simp] theorem writeStatus_pendValid (v : Word) (b : Block) : (writeStatus v b).pendValid = b.pendValid := rfl
@[simp] theorem writeStatus_pendOp (v : Word) (b : Block) : (writeStatus v b).pendOp = b.pendOp := rfl
@[simp] theorem writeStatus_pendA (v : Word) (b : Block) : (writeStatus v b).pendA = b.pendA := rfl
@[simp] theorem writeStatus_pendB (v : Word) (b : Block) : (writeStatus v b).pendB = b.pendB := rfl
@[simp] theorem writeStatus_pendMsg (v : Word) (b : Block) : (writeStatus v b).pendMsg = b.pendMsg := rfl

@[simp] theorem writeOpa_done (v : Word) (b : Block) : (writeOpa v b).done = b.done := rfl
@[simp] theorem writeOpa_valid (v : Word) (b : Block) : (writeOpa v b).valid = b.valid := rfl
@[simp] theorem writeOpa_dok (v : Word) (b : Block) : (writeOpa v b).dok = b.dok := rfl
@[simp] theorem writeOpa_ill (v : Word) (b : Block) : (writeOpa v b).ill = b.ill := rfl
@[simp] theorem writeOpa_ovr (v : Word) (b : Block) : (writeOpa v b).ovr = b.ovr := rfl
@[simp] theorem writeOpa_opa (v : Word) (b : Block) : (writeOpa v b).opa = v.extractLsb' 0 15 := rfl
@[simp] theorem writeOpa_opb (v : Word) (b : Block) : (writeOpa v b).opb = b.opb := rfl
@[simp] theorem writeOpa_msg (v : Word) (b : Block) : (writeOpa v b).msg = b.msg := rfl
@[simp] theorem writeOpa_result (v : Word) (b : Block) : (writeOpa v b).result = b.result := rfl
@[simp] theorem writeOpa_pendValid (v : Word) (b : Block) : (writeOpa v b).pendValid = b.pendValid := rfl
@[simp] theorem writeOpa_pendOp (v : Word) (b : Block) : (writeOpa v b).pendOp = b.pendOp := rfl
@[simp] theorem writeOpa_pendA (v : Word) (b : Block) : (writeOpa v b).pendA = b.pendA := rfl
@[simp] theorem writeOpa_pendB (v : Word) (b : Block) : (writeOpa v b).pendB = b.pendB := rfl
@[simp] theorem writeOpa_pendMsg (v : Word) (b : Block) : (writeOpa v b).pendMsg = b.pendMsg := rfl

@[simp] theorem writeOpb_done (v : Word) (b : Block) : (writeOpb v b).done = b.done := rfl
@[simp] theorem writeOpb_valid (v : Word) (b : Block) : (writeOpb v b).valid = b.valid := rfl
@[simp] theorem writeOpb_dok (v : Word) (b : Block) : (writeOpb v b).dok = b.dok := rfl
@[simp] theorem writeOpb_ill (v : Word) (b : Block) : (writeOpb v b).ill = b.ill := rfl
@[simp] theorem writeOpb_ovr (v : Word) (b : Block) : (writeOpb v b).ovr = b.ovr := rfl
@[simp] theorem writeOpb_opa (v : Word) (b : Block) : (writeOpb v b).opa = b.opa := rfl
@[simp] theorem writeOpb_opb (v : Word) (b : Block) : (writeOpb v b).opb = v.extractLsb' 0 15 := rfl
@[simp] theorem writeOpb_msg (v : Word) (b : Block) : (writeOpb v b).msg = b.msg := rfl
@[simp] theorem writeOpb_result (v : Word) (b : Block) : (writeOpb v b).result = b.result := rfl
@[simp] theorem writeOpb_pendValid (v : Word) (b : Block) : (writeOpb v b).pendValid = b.pendValid := rfl
@[simp] theorem writeOpb_pendOp (v : Word) (b : Block) : (writeOpb v b).pendOp = b.pendOp := rfl
@[simp] theorem writeOpb_pendA (v : Word) (b : Block) : (writeOpb v b).pendA = b.pendA := rfl
@[simp] theorem writeOpb_pendB (v : Word) (b : Block) : (writeOpb v b).pendB = b.pendB := rfl
@[simp] theorem writeOpb_pendMsg (v : Word) (b : Block) : (writeOpb v b).pendMsg = b.pendMsg := rfl

@[simp] theorem writeMsg_done (v : Word) (b : Block) : (writeMsg v b).done = b.done := rfl
@[simp] theorem writeMsg_valid (v : Word) (b : Block) : (writeMsg v b).valid = b.valid := rfl
@[simp] theorem writeMsg_dok (v : Word) (b : Block) : (writeMsg v b).dok = b.dok := rfl
@[simp] theorem writeMsg_ill (v : Word) (b : Block) : (writeMsg v b).ill = b.ill := rfl
@[simp] theorem writeMsg_ovr (v : Word) (b : Block) : (writeMsg v b).ovr = b.ovr := rfl
@[simp] theorem writeMsg_opa (v : Word) (b : Block) : (writeMsg v b).opa = b.opa := rfl
@[simp] theorem writeMsg_opb (v : Word) (b : Block) : (writeMsg v b).opb = b.opb := rfl
@[simp] theorem writeMsg_msg (v : Word) (b : Block) : (writeMsg v b).msg = v.extractLsb' 0 5 := rfl
@[simp] theorem writeMsg_result (v : Word) (b : Block) : (writeMsg v b).result = b.result := rfl
@[simp] theorem writeMsg_pendValid (v : Word) (b : Block) : (writeMsg v b).pendValid = b.pendValid := rfl
@[simp] theorem writeMsg_pendOp (v : Word) (b : Block) : (writeMsg v b).pendOp = b.pendOp := rfl
@[simp] theorem writeMsg_pendA (v : Word) (b : Block) : (writeMsg v b).pendA = b.pendA := rfl
@[simp] theorem writeMsg_pendB (v : Word) (b : Block) : (writeMsg v b).pendB = b.pendB := rfl
@[simp] theorem writeMsg_pendMsg (v : Word) (b : Block) : (writeMsg v b).pendMsg = b.pendMsg := rfl

@[simp] theorem synEffect_done (b : Block) : (synEffect b).done = b.done := rfl
@[simp] theorem synEffect_valid (b : Block) : (synEffect b).valid = isValid b.pendA := rfl
@[simp] theorem synEffect_dok (b : Block) : (synEffect b).dok = b.dok := rfl
@[simp] theorem synEffect_ill (b : Block) : (synEffect b).ill = b.ill := rfl
@[simp] theorem synEffect_ovr (b : Block) : (synEffect b).ovr = b.ovr := rfl
@[simp] theorem synEffect_opa (b : Block) : (synEffect b).opa = b.opa := rfl
@[simp] theorem synEffect_opb (b : Block) : (synEffect b).opb = b.opb := rfl
@[simp] theorem synEffect_msg (b : Block) : (synEffect b).msg = b.msg := rfl
@[simp] theorem synEffect_result (b : Block) : (synEffect b).result = (bchRemainder b.pendA).setWidth 15 := rfl
@[simp] theorem synEffect_pendValid (b : Block) : (synEffect b).pendValid = b.pendValid := rfl
@[simp] theorem synEffect_pendOp (b : Block) : (synEffect b).pendOp = b.pendOp := rfl
@[simp] theorem synEffect_pendA (b : Block) : (synEffect b).pendA = b.pendA := rfl
@[simp] theorem synEffect_pendB (b : Block) : (synEffect b).pendB = b.pendB := rfl
@[simp] theorem synEffect_pendMsg (b : Block) : (synEffect b).pendMsg = b.pendMsg := rfl

@[simp] theorem chkEffect_done (b : Block) : (chkEffect b).done = b.done := rfl
@[simp] theorem chkEffect_valid (b : Block) : (chkEffect b).valid = isValid b.pendA := rfl
@[simp] theorem chkEffect_dok (b : Block) : (chkEffect b).dok = b.dok := rfl
@[simp] theorem chkEffect_ill (b : Block) : (chkEffect b).ill = b.ill := rfl
@[simp] theorem chkEffect_ovr (b : Block) : (chkEffect b).ovr = b.ovr := rfl
@[simp] theorem chkEffect_opa (b : Block) : (chkEffect b).opa = b.opa := rfl
@[simp] theorem chkEffect_opb (b : Block) : (chkEffect b).opb = b.opb := rfl
@[simp] theorem chkEffect_msg (b : Block) : (chkEffect b).msg = b.msg := rfl
@[simp] theorem chkEffect_result (b : Block) : (chkEffect b).result = (BitVec.ofBool (isValid b.pendA)).setWidth 15 := rfl
@[simp] theorem chkEffect_pendValid (b : Block) : (chkEffect b).pendValid = b.pendValid := rfl
@[simp] theorem chkEffect_pendOp (b : Block) : (chkEffect b).pendOp = b.pendOp := rfl
@[simp] theorem chkEffect_pendA (b : Block) : (chkEffect b).pendA = b.pendA := rfl
@[simp] theorem chkEffect_pendB (b : Block) : (chkEffect b).pendB = b.pendB := rfl
@[simp] theorem chkEffect_pendMsg (b : Block) : (chkEffect b).pendMsg = b.pendMsg := rfl

@[simp] theorem encEffect_done (b : Block) : (encEffect b).done = b.done := rfl
@[simp] theorem encEffect_valid (b : Block) : (encEffect b).valid = b.valid := rfl
@[simp] theorem encEffect_dok (b : Block) : (encEffect b).dok = b.dok := rfl
@[simp] theorem encEffect_ill (b : Block) : (encEffect b).ill = b.ill := rfl
@[simp] theorem encEffect_ovr (b : Block) : (encEffect b).ovr = b.ovr := rfl
@[simp] theorem encEffect_opa (b : Block) : (encEffect b).opa = b.opa := rfl
@[simp] theorem encEffect_opb (b : Block) : (encEffect b).opb = b.opb := rfl
@[simp] theorem encEffect_msg (b : Block) : (encEffect b).msg = b.msg := rfl
@[simp] theorem encEffect_result (b : Block) : (encEffect b).result = bchEncode b.pendMsg := rfl
@[simp] theorem encEffect_pendValid (b : Block) : (encEffect b).pendValid = b.pendValid := rfl
@[simp] theorem encEffect_pendOp (b : Block) : (encEffect b).pendOp = b.pendOp := rfl
@[simp] theorem encEffect_pendA (b : Block) : (encEffect b).pendA = b.pendA := rfl
@[simp] theorem encEffect_pendB (b : Block) : (encEffect b).pendB = b.pendB := rfl
@[simp] theorem encEffect_pendMsg (b : Block) : (encEffect b).pendMsg = b.pendMsg := rfl

@[simp] theorem decEffect_done (b : Block) : (decEffect b).done = b.done := by simp only [decEffect]
@[simp] theorem decEffect_valid (b : Block) : (decEffect b).valid = b.valid := by simp only [decEffect]
@[simp] theorem decEffect_dok (b : Block) : (decEffect b).dok = (bchDecode b.pendA).1 := by simp only [decEffect]
@[simp] theorem decEffect_ill (b : Block) : (decEffect b).ill = b.ill := by simp only [decEffect]
@[simp] theorem decEffect_ovr (b : Block) : (decEffect b).ovr = b.ovr := by simp only [decEffect]
@[simp] theorem decEffect_opa (b : Block) : (decEffect b).opa = b.opa := by simp only [decEffect]
@[simp] theorem decEffect_opb (b : Block) : (decEffect b).opb = b.opb := by simp only [decEffect]
@[simp] theorem decEffect_msg (b : Block) : (decEffect b).msg = b.msg := by simp only [decEffect]
@[simp] theorem decEffect_result (b : Block) : (decEffect b).result = (if (bchDecode b.pendA).1 then (bchDecode b.pendA).2.setWidth 15 else 0) := by simp only [decEffect]
@[simp] theorem decEffect_pendValid (b : Block) : (decEffect b).pendValid = b.pendValid := by simp only [decEffect]
@[simp] theorem decEffect_pendOp (b : Block) : (decEffect b).pendOp = b.pendOp := by simp only [decEffect]
@[simp] theorem decEffect_pendA (b : Block) : (decEffect b).pendA = b.pendA := by simp only [decEffect]
@[simp] theorem decEffect_pendB (b : Block) : (decEffect b).pendB = b.pendB := by simp only [decEffect]
@[simp] theorem decEffect_pendMsg (b : Block) : (decEffect b).pendMsg = b.pendMsg := by simp only [decEffect]

@[simp] theorem distEffect_done (b : Block) : (distEffect b).done = b.done := rfl
@[simp] theorem distEffect_valid (b : Block) : (distEffect b).valid = b.valid := rfl
@[simp] theorem distEffect_dok (b : Block) : (distEffect b).dok = b.dok := rfl
@[simp] theorem distEffect_ill (b : Block) : (distEffect b).ill = b.ill := rfl
@[simp] theorem distEffect_ovr (b : Block) : (distEffect b).ovr = b.ovr := rfl
@[simp] theorem distEffect_opa (b : Block) : (distEffect b).opa = b.opa := rfl
@[simp] theorem distEffect_opb (b : Block) : (distEffect b).opb = b.opb := rfl
@[simp] theorem distEffect_msg (b : Block) : (distEffect b).msg = b.msg := rfl
@[simp] theorem distEffect_result (b : Block) : (distEffect b).result = BitVec.ofNat 15 (distance b.pendA b.pendB) := rfl
@[simp] theorem distEffect_pendValid (b : Block) : (distEffect b).pendValid = b.pendValid := rfl
@[simp] theorem distEffect_pendOp (b : Block) : (distEffect b).pendOp = b.pendOp := rfl
@[simp] theorem distEffect_pendA (b : Block) : (distEffect b).pendA = b.pendA := rfl
@[simp] theorem distEffect_pendB (b : Block) : (distEffect b).pendB = b.pendB := rfl
@[simp] theorem distEffect_pendMsg (b : Block) : (distEffect b).pendMsg = b.pendMsg := rfl

@[simp] theorem wgtEffect_done (b : Block) : (wgtEffect b).done = b.done := rfl
@[simp] theorem wgtEffect_valid (b : Block) : (wgtEffect b).valid = b.valid := rfl
@[simp] theorem wgtEffect_dok (b : Block) : (wgtEffect b).dok = b.dok := rfl
@[simp] theorem wgtEffect_ill (b : Block) : (wgtEffect b).ill = b.ill := rfl
@[simp] theorem wgtEffect_ovr (b : Block) : (wgtEffect b).ovr = b.ovr := rfl
@[simp] theorem wgtEffect_opa (b : Block) : (wgtEffect b).opa = b.opa := rfl
@[simp] theorem wgtEffect_opb (b : Block) : (wgtEffect b).opb = b.opb := rfl
@[simp] theorem wgtEffect_msg (b : Block) : (wgtEffect b).msg = b.msg := rfl
@[simp] theorem wgtEffect_result (b : Block) : (wgtEffect b).result = BitVec.ofNat 15 (popcount b.pendA) := rfl
@[simp] theorem wgtEffect_pendValid (b : Block) : (wgtEffect b).pendValid = b.pendValid := rfl
@[simp] theorem wgtEffect_pendOp (b : Block) : (wgtEffect b).pendOp = b.pendOp := rfl
@[simp] theorem wgtEffect_pendA (b : Block) : (wgtEffect b).pendA = b.pendA := rfl
@[simp] theorem wgtEffect_pendB (b : Block) : (wgtEffect b).pendB = b.pendB := rfl
@[simp] theorem wgtEffect_pendMsg (b : Block) : (wgtEffect b).pendMsg = b.pendMsg := rfl

@[simp] theorem Block.withLatchOf_done (b src : Block) : (b.withLatchOf src).done = b.done := rfl
@[simp] theorem Block.withLatchOf_valid (b src : Block) : (b.withLatchOf src).valid = b.valid := rfl
@[simp] theorem Block.withLatchOf_dok (b src : Block) : (b.withLatchOf src).dok = b.dok := rfl
@[simp] theorem Block.withLatchOf_ill (b src : Block) : (b.withLatchOf src).ill = b.ill := rfl
@[simp] theorem Block.withLatchOf_ovr (b src : Block) : (b.withLatchOf src).ovr = b.ovr := rfl
@[simp] theorem Block.withLatchOf_opa (b src : Block) : (b.withLatchOf src).opa = b.opa := rfl
@[simp] theorem Block.withLatchOf_opb (b src : Block) : (b.withLatchOf src).opb = b.opb := rfl
@[simp] theorem Block.withLatchOf_msg (b src : Block) : (b.withLatchOf src).msg = b.msg := rfl
@[simp] theorem Block.withLatchOf_result (b src : Block) : (b.withLatchOf src).result = b.result := rfl
@[simp] theorem Block.withLatchOf_pendValid (b src : Block) : (b.withLatchOf src).pendValid = b.pendValid := rfl
@[simp] theorem Block.withLatchOf_pendOp (b src : Block) : (b.withLatchOf src).pendOp = src.pendOp := rfl
@[simp] theorem Block.withLatchOf_pendA (b src : Block) : (b.withLatchOf src).pendA = src.pendA := rfl
@[simp] theorem Block.withLatchOf_pendB (b src : Block) : (b.withLatchOf src).pendB = src.pendB := rfl
@[simp] theorem Block.withLatchOf_pendMsg (b src : Block) : (b.withLatchOf src).pendMsg = src.pendMsg := rfl

end Sys2Proof.Machine
end

