-- ==== Sys2Proof/Laws/Ops.lean ====
section
/-! SUPPORT. For each shared operation, one lemma that says everything it can do; the inversion lemmas of the step are
`step_next_cases`, over the whole state, and `step_block_cases`, over the block. -/

namespace Sys2Proof

/-! ### Lanes and words -/

@[simp] theorem lanesOf_length (v : Word) : (lanesOf v).length = 4 := rfl

@[simp] theorem wordOfLanes_lanesOf (v : Word) : wordOfLanes (lanesOf v) = some v := by
  simp only [lanesOf, wordOfLanes, Option.some.injEq]
  ext i hi
  simp only [BitVec.getElem_append, BitVec.getElem_extractLsb']
  split
  · simp [BitVec.getLsbD_eq_getElem, hi]
  · split
    · simp only [← BitVec.getLsbD_eq_getElem]; congr 1; omega
    · split
      · simp only [← BitVec.getLsbD_eq_getElem]; congr 1; omega
      · simp only [← BitVec.getLsbD_eq_getElem]; congr 1; omega

theorem wordOfLanes_isSome_of_length {lanes : List Byte} (h : lanes.length = 4) :
    ∃ v, wordOfLanes lanes = some v := by
  match lanes, h with
  | [b0, b1, b2, b3], _ => exact ⟨_, rfl⟩

theorem length_of_wordOfLanes {lanes : List Byte} {v : Word} (h : wordOfLanes lanes = some v) :
    lanes.length = 4 := by
  unfold wordOfLanes at h
  split at h
  · rfl
  · cases h

end Sys2Proof

namespace Sys2Proof.Machine

/-! ### Command writes -/

/-- What a CMD write of a decoded command does to the block (40_control.md R100): nothing for NOP, else issue or
overrun. -/
theorem exec_eq_next (i : Instr) (s : State) :
    exec i s = .next (s.onBlock fun b => if i = .nop then b else issueOrDrop (opcodeOf i) b) := by
  cases i <;> rfl

theorem issueOrDrop_of_idle (op : Opcode) (b : Block) (h : b.pendValid = false) :
    issueOrDrop op b = issue op b := by simp [issueOrDrop, Block.busy, h]

theorem issueOrDrop_of_busy (op : Opcode) (b : Block) (h : b.pendValid = true) :
    issueOrDrop op b = recordOverrun b := by simp [issueOrDrop, Block.busy, h]

/-- A command write always has a next state, and changes the block alone, in one of three ways. -/
theorem commandWrite_cases (v : Word) (s : State) :
    ((∃ why, decodeWord v = .error why) ∧ commandWrite v s = .next (s.onBlock recordIllegal)) ∨
    (decodeWord v = .ok .nop ∧ commandWrite v s = .next s) ∨
    ∃ c, decodeWord v = .ok c ∧ c ≠ .nop ∧ commandWrite v s = .next (s.onBlock (issueOrDrop (opcodeOf c))) := by
  unfold commandWrite
  cases hd : decodeWord v with
  | error why => exact .inl ⟨⟨why, rfl⟩, rfl⟩
  | ok c => cases c <;> simp [exec_eq_next, State.onBlock]

/-! ### The bus -/

/-- A register write always has a next state, and changes the block alone. -/
theorem writeReg_next (r : Reg) (v : Word) (s : State) :
    ∃ f : Block → Block, writeReg r v s = .next (s.onBlock f) := by
  cases r
  · rcases commandWrite_cases v s with ⟨-, h⟩ | ⟨-, h⟩ | ⟨c, -, -, h⟩
    · exact ⟨_, h⟩
    · exact ⟨id, h⟩
    · exact ⟨_, h⟩
  · exact ⟨_, rfl⟩
  · exact ⟨_, rfl⟩
  · exact ⟨_, rfl⟩
  · exact ⟨_, rfl⟩
  · exact ⟨id, rfl⟩
  · exact ⟨id, rfl⟩

/-- A host access has a next state exactly when the block performs it (20_memory.md R51, R52). -/
theorem hostAccess_served {a : Access} {s : State} (h : a.served s.platform = true) :
    hostAccess a s = serveAccess a s := by
  simp only [Access.served, Bool.and_eq_true] at h
  simp [hostAccess, h.1, h.2]

theorem hostAccess_not_served {a : Access} {s : State} (h : a.served s.platform = false) :
    hostAccess a s = .refused (.busError a.addr) ∨ hostAccess a s = .refused (.outsideWindow a.addr) := by
  unfold hostAccess
  simp only [Access.served, Bool.and_eq_false_iff] at h
  cases hw : inWindow s.platform a.addr
  · exact .inr (by simp)
  · cases hl : legalAccess s.platform a.addr a.size
    · exact .inl (by simp)
    · simp [hw, hl] at h

/-- A served write carries one word. -/
theorem word_of_served_write {p : Platform} {addr : Nat} {lanes : List Byte}
    (h : (Access.write addr lanes).served p = true) : ∃ v, wordOfLanes lanes = some v := by
  simp only [Access.served, Access.addr, Access.size, legalAccess, accessBytes, Bool.and_eq_true,
    beq_iff_eq] at h
  exact wordOfLanes_isSome_of_length h.2.1

/-! ### Completion -/

theorem completionEffect_of_command {op : Opcode} (h : 1 ≤ op.toNat ∧ op.toNat ≤ 6) :
    ∃ effect, completionEffect op = some effect := by
  have key : ∀ op : Opcode, 1 ≤ op.toNat ∧ op.toNat ≤ 6 → (instrOfOpcode op).any (· ≠ .nop) = true := by decide
  have := key op h
  unfold completionEffect
  cases hi : instrOfOpcode op with
  | none => simp [hi] at this
  | some c => cases c <;> simp_all

/-- An effect writes RESULT, VALID and DOK at most (R103, D17), and never the operands, the latch or the other flags. -/
theorem completionEffect_frame {op : Opcode} {effect : Block → Block} (h : completionEffect op = some effect)
    (b : Block) :
    effect b = { b with result := (effect b).result, valid := (effect b).valid, dok := (effect b).dok } := by
  unfold completionEffect at h
  split at h <;> cases h
  · rfl
  · rfl
  · rfl
  · simp only [decEffect]
  · rfl
  · rfl

/-- Effects read the latch alone: replacing every field they do not read changes no result. -/
theorem completionEffect_reads_latch {op : Opcode} {effect : Block → Block}
    (h : completionEffect op = some effect) (b c : Block) (ha : c.pendA = b.pendA) (hb : c.pendB = b.pendB)
    (hm : c.pendMsg = b.pendMsg) (hv : c.valid = b.valid) (hd : c.dok = b.dok) :
    (effect c).result = (effect b).result ∧ (effect c).valid = (effect b).valid ∧
      (effect c).dok = (effect b).dok := by
  unfold completionEffect at h
  split at h <;> cases h <;> simp_all

/-! ### The step -/

/-- The state with its next turn taken off the agenda. -/
def State.popped (s : State) : State := { s with agenda := s.agenda.tail }

@[simp] theorem State.popped_block (s : State) : s.popped.block = s.block := rfl
@[simp] theorem State.popped_platform (s : State) : s.popped.platform = s.platform := rfl
@[simp] theorem State.popped_agenda (s : State) : s.popped.agenda = s.agenda.tail := rfl
@[simp] theorem State.popped_reply (s : State) : s.popped.reply = s.reply := rfl

/-- A step takes the next turn, the engine's where the agenda is empty. -/
theorem step_eq_takeTurn (s : State) : step s = takeTurn s.turn s.popped := by
  unfold step nextTurn State.turn State.popped
  cases h : s.agenda with
  | nil =>
    have : ({ s with agenda := [] } : State) = s := by cases s; simp_all
    simp [takeTurn, this]
  | cons t rest => rfl

/-- Everything a step with a next state can do. -/
theorem step_next_cases {s t : State} (h : step s = .next t) :
    (∃ addr size, s.turn = .host (.read addr size) ∧ (Access.read addr size).served s.platform = true ∧
      t = s.popped.replied (.data (lanesOf (readReg (regAt (offsetOf s.platform addr)) s.block)))) ∨
    (∃ addr lanes v, s.turn = .host (.write addr lanes) ∧ (Access.write addr lanes).served s.platform = true ∧
      wordOfLanes lanes = some v ∧
      writeReg (regAt (offsetOf s.platform addr)) v (s.popped.replied .written) = .next t) ∨
    (s.turn = .engine ∧ s.block.pendValid = false ∧ t = s.popped) ∨
    (∃ effect, s.turn = .engine ∧ s.block.pendValid = true ∧ completionEffect s.block.pendOp = some effect ∧
      t = s.popped.onBlock fun b => finish (effect b)) ∨
    (s.turn = .reset none ∧ t = s.popped.onBlock Block.applyReset) := by
  rw [step_eq_takeTurn] at h
  cases ht : s.turn with
  | host a =>
    rw [ht] at h
    have h' : hostAccess a s.popped = .next t := h
    cases hs : a.served s.platform with
    | false =>
      rcases hostAccess_not_served (s := s.popped) hs with hr | hr <;> (rw [hr] at h'; cases h')
    | true =>
      rw [hostAccess_served (s := s.popped) hs] at h'
      cases a with
      | read addr size =>
        refine .inl ⟨addr, size, rfl, hs, ?_⟩
        simpa [serveAccess] using h'.symm
      | write addr lanes =>
        obtain ⟨v, hv⟩ := word_of_served_write hs
        refine .inr (.inl ⟨addr, lanes, v, rfl, hs, hv, ?_⟩)
        simpa [serveAccess, hv] using h'
  | engine =>
    rw [ht] at h
    have h' : engineTurn s.popped = .next t := h
    unfold engineTurn complete at h'
    cases hb : s.block.pendValid with
    | false => simp [Block.busy, hb] at h'; exact .inr (.inr (.inl ⟨rfl, rfl, h'.symm⟩))
    | true =>
      cases he : completionEffect s.block.pendOp with
      | none => simp [Block.busy, hb, he] at h'
      | some effect =>
        simp [Block.busy, hb, he] at h'
        exact .inr (.inr (.inr (.inl ⟨effect, rfl, rfl, rfl, h'.symm⟩)))
  | reset during =>
    rw [ht] at h
    cases during with
    | some a => simp [takeTurn, resetTurn] at h
    | none =>
      simp [takeTurn, resetTurn] at h
      exact .inr (.inr (.inr (.inr ⟨rfl, h.symm⟩)))

/-- A served turn of a state whose occupied latch holds a command has a next state. -/
theorem takeTurn_next {t : Turn} {s : State} (ht : t.served s.platform = true)
    (hl : s.block.pendValid = true → 1 ≤ s.block.pendOp.toNat ∧ s.block.pendOp.toNat ≤ 6) :
    ∃ u, takeTurn t s = .next u := by
  cases t with
  | host a =>
    have hs : a.served s.platform = true := ht
    show ∃ u, hostAccess a s = .next u
    rw [hostAccess_served hs]
    cases a with
    | read addr size => exact ⟨_, rfl⟩
    | write addr lanes =>
      obtain ⟨v, hv⟩ := word_of_served_write hs
      obtain ⟨f, hf⟩ := writeReg_next (regAt (offsetOf s.platform addr)) v (s.replied .written)
      exact ⟨_, by simpa [serveAccess, hv] using hf⟩
  | engine =>
    show ∃ u, engineTurn s = .next u
    unfold engineTurn complete
    cases hb : s.block.pendValid with
    | false => exact ⟨s, by simp [Block.busy, hb]⟩
    | true =>
      obtain ⟨effect, he⟩ := completionEffect_of_command (hl hb)
      exact ⟨s.onBlock fun b => finish (effect b), by simp [Block.busy, hb, he]⟩
  | reset during =>
    cases during with
    | some a => simp [Turn.served] at ht
    | none => exact ⟨_, rfl⟩

/-! ### The step, seen from the block -/

/-- What a CMD write of `v` does to the block, by the value of the word (40_control.md R100, R107). -/
def commandWriteEffect (v : Word) (b : Block) : Block :=
  if 7 ≤ v.toNat then recordIllegal b
  else if v.toNat = 0 then b
  else issueOrDrop (v.extractLsb' 0 4) b

/-- The reserved field is zero exactly for the words below 16. -/
theorem rsv_zero_iff (v : Word) : v.extractLsb' 4 28 = 0 ↔ v.toNat < 16 := by
  rw [← BitVec.toNat_inj]
  have := v.isLt
  simp [BitVec.extractLsb'_toNat, Nat.shiftRight_eq_div_pow]
  omega

theorem instrOfOpcode_eq_some : ∀ (op : Opcode) (i : Instr), instrOfOpcode op = some i ↔ op = opcodeOf i := by
  intro op i
  revert op
  cases i <;> decide

theorem instrOfOpcode_eq_none : ∀ op : Opcode, instrOfOpcode op = none ↔ 7 ≤ op.toNat := by decide

/-- A command write has a next state, whatever the word and the state, and changes the block alone. -/
theorem commandWrite_eq_next (v : Word) (s : State) :
    commandWrite v s = .next (s.onBlock (commandWriteEffect v)) := by
  unfold commandWrite decodeWord commandWriteEffect
  by_cases h : v.extractLsb' 4 28 = 0
  · have h16 := (rsv_zero_iff v).1 h
    have hlo : (v.extractLsb' 0 4).toNat = v.toNat := by
      simp only [BitVec.extractLsb'_toNat, Nat.shiftRight_zero]
      omega
    rw [if_neg (c := v.extractLsb' 4 28 ≠ 0) (by simpa using h)]
    cases hi : instrOfOpcode (v.extractLsb' 0 4) with
    | none =>
      have h7 := (instrOfOpcode_eq_none _).1 hi
      rw [hlo] at h7
      simp [h7]
    | some c =>
      have hc := (instrOfOpcode_eq_some _ _).1 hi
      have hv : v.toNat = (opcodeOf c).toNat := by rw [← hlo, hc]
      simp only [exec_eq_next]
      cases c <;> simp [opcodeOf] at hv <;> simp [hv, hc, opcodeOf]
  · have h16 : ¬v.toNat < 16 := fun hh => h ((rsv_zero_iff v).2 hh)
    rw [if_pos (c := v.extractLsb' 4 28 ≠ 0) h]
    simp only [show 7 ≤ v.toNat by omega, if_true]

/-- The four outcomes of a command write (R107). -/
theorem commandWriteEffect_cases (v : Word) (b : Block) :
    (isIllegalWord v = true ∧ isComputingWord v = false ∧ commandWriteEffect v b = recordIllegal b) ∨
    (isIllegalWord v = false ∧ isComputingWord v = false ∧ v = 0 ∧ commandWriteEffect v b = b) ∨
    (isIllegalWord v = false ∧ isComputingWord v = true ∧ b.pendValid = true ∧
      commandWriteEffect v b = recordOverrun b) ∨
    (isIllegalWord v = false ∧ isComputingWord v = true ∧ b.pendValid = false ∧ 1 ≤ v.toNat ∧ v.toNat ≤ 6 ∧
      commandWriteEffect v b = issue (v.extractLsb' 0 4) b) := by
  unfold commandWriteEffect isIllegalWord isComputingWord
  by_cases h : 7 ≤ v.toNat
  · left; simp [h]; omega
  · by_cases h0 : v.toNat = 0
    · right; left; simp [h0]; exact BitVec.eq_of_toNat_eq (by simpa using h0)
    · cases hb : b.pendValid
      · right; right; right; simp [h, h0, issueOrDrop, Block.busy, hb]; omega
      · right; right; left; simp [h, h0, issueOrDrop, Block.busy, hb]; omega

/-- What a host write does to the block, by the register it reaches (20_memory.md R55). -/
def registerWriteEffect (r : Reg) (v : Word) (b : Block) : Block :=
  match r with
  | .cmd => commandWriteEffect v b
  | .status => writeStatus v b
  | .opa => writeOpa v b
  | .opb => writeOpb v b
  | .msg => writeMsg v b
  | .result => b
  | .reserved => b

theorem writeReg_eq_next (r : Reg) (v : Word) (s : State) :
    writeReg r v s = .next (s.onBlock (registerWriteEffect r v)) := by
  cases r
  · exact commandWrite_eq_next v s
  all_goals rfl

theorem regAt_eq_cmd (off : Nat) : regAt off = .cmd ↔ off = 0x00 := by
  unfold regAt; (repeat' split) <;> simp_all

theorem regAt_eq_status (off : Nat) : regAt off = .status ↔ off = 0x04 := by
  unfold regAt; (repeat' split) <;> simp_all

theorem regAt_eq_opa (off : Nat) : regAt off = .opa ↔ off = 0x08 := by
  unfold regAt; (repeat' split) <;> simp_all

theorem regAt_eq_opb (off : Nat) : regAt off = .opb ↔ off = 0x0C := by
  unfold regAt; (repeat' split) <;> simp_all

theorem regAt_eq_msg (off : Nat) : regAt off = .msg ↔ off = 0x10 := by
  unfold regAt; (repeat' split) <;> simp_all

/-- Everything a step with a next state can do to the block, and which window offset it writes. -/
theorem step_block_cases {s t : State} (h : step s = .next t) :
    (∃ a, s.turn = .host a ∧ (∀ off, s.writes off = none) ∧ t.block = s.block) ∨
    (∃ a off v, s.turn = .host a ∧ off < 64 ∧ off % 4 = 0 ∧
      (∀ k, s.writes k = if off = k then some v else none) ∧
      t.block = registerWriteEffect (regAt off) v s.block) ∨
    (s.turn = .engine ∧ s.block.pendValid = false ∧ t.block = s.block) ∨
    (∃ effect, s.turn = .engine ∧ s.block.pendValid = true ∧ completionEffect s.block.pendOp = some effect ∧
      t.block = finish (effect s.block)) ∨
    (s.turn = .reset none ∧ t.block = s.block.applyReset) := by
  rcases step_next_cases h with ⟨addr, size, h1, -, rfl⟩ | ⟨addr, lanes, v, h1, h2, h3, h4⟩ |
    ⟨h1, h2, rfl⟩ | ⟨effect, h1, h2, h3, rfl⟩ | ⟨h1, rfl⟩
  · exact .inl ⟨_, h1, by simp [State.writes, h1, Turn.writes], rfl⟩
  · simp only [Access.served, inWindow, legalAccess, Access.addr, windowBytes, Bool.and_eq_true, beq_iff_eq] at h2
    obtain ⟨⟨hlo, hhi⟩, -, hal⟩ := h2
    have hlo := of_decide_eq_true hlo
    have hhi := of_decide_eq_true hhi
    refine .inr (.inl ⟨_, addr - s.platform.base, v, h1, by omega, hal, fun k => ?_, ?_⟩)
    · simp only [State.writes, h1, Turn.writes, h3]
      by_cases hk : addr = s.platform.base + k
      · rw [if_pos hk, if_pos (by omega)]
      · rw [if_neg hk, if_neg (by omega)]
    · rw [writeReg_eq_next] at h4
      cases h4
      rfl
  · exact .inr (.inr (.inl ⟨h1, h2, rfl⟩))
  · exact .inr (.inr (.inr (.inl ⟨effect, h1, h2, h3, rfl⟩)))
  · exact .inr (.inr (.inr (.inr ⟨h1, rfl⟩)))

/-! ### Runs -/

@[simp] theorem runSteps_zero (s : State) : runSteps 0 s = .next s := rfl

/-- One more step in front of a run. -/
theorem runSteps_succ {s t : State} (k : Nat) (h : step s = .next t) : runSteps (k + 1) s = runSteps k t := by
  have hc : Sys2Proof.core.step s = .next t := h
  simp only [runSteps, Host.Core.run, hc]
  rfl

end Sys2Proof.Machine
end

