-- ==== Sys2Proof/Laws/PerInstr.lean ====
section
/-! SUPPORT. Statements for all instructions, one lemma per constructor. Encoding: an instruction is well formed as it
stands, its word is one of the opcode map, and its bytes decode to it (30_encoding.md R70 to R75). -/

namespace Sys2Proof.Laws.Encoding

/-- R70 to R75 for one instruction. -/
def Statement (i : Instr) : Prop :=
  i.wellFormed = true ∧ wordIsWellFormed (encodeWord i) = true ∧ decode (encode i) = .ok i ∧
    instrOfOpcode (opcodeOf i) = some i

theorem nop : Statement .nop := ⟨rfl, rfl, rfl, rfl⟩
theorem syn : Statement .syn := ⟨rfl, rfl, rfl, rfl⟩
theorem chk : Statement .chk := ⟨rfl, rfl, rfl, rfl⟩
theorem enc : Statement .enc := ⟨rfl, rfl, rfl, rfl⟩
theorem dec : Statement .dec := ⟨rfl, rfl, rfl, rfl⟩
theorem dist : Statement .dist := ⟨rfl, rfl, rfl, rfl⟩
theorem wgt : Statement .wgt := ⟨rfl, rfl, rfl, rfl⟩

end Sys2Proof.Laws.Encoding
end

