-- ==== Sys2Proof/Laws/Runs.lean ====
section
/-! SUPPORT. Runs: the induction over the turns of an agenda, packaged once, and the exact steps of a read, a write and a
completion. -/

namespace Sys2Proof.Machine

theorem turn_of_agenda {s : State} {t : Turn} {rest : List Turn} (h : s.agenda = t :: rest) : s.turn = t := by
  simp [State.turn, h]

/-- A step moves no window and takes one turn off the agenda. -/
theorem step_platform_agenda {s t : State} (h : step s = .next t) :
    t.platform = s.platform ∧ t.agenda = s.agenda.tail := by
  rcases step_next_cases h with ⟨_, _, -, -, rfl⟩ | ⟨_, _, v, -, -, -, h4⟩ | ⟨-, -, rfl⟩ | ⟨_, -, -, -, rfl⟩ | ⟨-, rfl⟩
  · simp
  · rw [writeReg_eq_next] at h4; cases h4; simp
  · simp
  · simp
  · simp

/-- A state whose occupied latch holds a command steps on every served turn. -/
theorem step_of_served {s : State}
    (hl : s.block.pendValid = true → 1 ≤ s.block.pendOp.toNat ∧ s.block.pendOp.toNat ≤ 6)
    (ht : s.turn.served s.platform = true) : ∃ t, step s = .next t := by
  rw [step_eq_takeTurn]
  exact takeTurn_next (by simpa using ht) (by simpa using hl)

/-- The induction over runs: a property kept by the step of every turn that `ok` admits holds after all of them. -/
theorem runSteps_turns_induction (P : State → Prop) (ok : Platform → Turn → Prop)
    (hstep : ∀ s t rest, P s → s.agenda = t :: rest → ok s.platform t → ∃ u, step s = .next u ∧ P u) :
    ∀ (turns : List Turn) (s : State) (rest : List Turn), P s → s.agenda = turns ++ rest →
      (∀ t ∈ turns, ok s.platform t) →
      ∃ u, runSteps turns.length s = .next u ∧ P u ∧ u.agenda = rest ∧ u.platform = s.platform := by
  intro turns
  induction turns with
  | nil => intro s rest hP ha _; exact ⟨s, rfl, hP, by simpa using ha, rfl⟩
  | cons t ts ih =>
    intro s rest hP ha hok
    obtain ⟨u, hu, hPu⟩ := hstep s t (ts ++ rest) hP (by simpa using ha) (hok t (by simp))
    obtain ⟨hp, hg⟩ := step_platform_agenda hu
    obtain ⟨w, hw, hPw, haw, hpw⟩ := ih u rest hPu (by rw [hg, ha]; rfl)
      (fun t' ht' => by rw [hp]; exact hok t' (by simp [ht']))
    exact ⟨w, by rw [List.length_cons, runSteps_succ _ hu, hw], hPw, haw, hpw.trans hp⟩

/-- A run of `j + k` steps is a run of `k` steps from where the first `j` end. -/
theorem runSteps_add (j k : Nat) : ∀ s t, runSteps j s = .next t → runSteps (j + k) s = runSteps k t := by
  induction j with
  | zero => intro s t h; simp at h; subst h; simp
  | succ j ih =>
    intro s t h
    cases hs : step s with
    | next u =>
      rw [runSteps_succ _ hs] at h
      rw [show j + 1 + k = (j + k) + 1 by omega, runSteps_succ _ hs]
      exact ih _ _ h
    | fault f =>
      have hc : Sys2Proof.core.step s = .fault f := hs
      simp [runSteps, Host.Core.run, hc] at h
    | refused r =>
      have hc : Sys2Proof.core.step s = .refused r := hs
      simp [runSteps, Host.Core.run, hc] at h

/-- The step of a legal read: the reply alone changes (20_memory.md R54). -/
theorem step_readTurn {s : State} {off : Nat} {rest : List Turn} (hlt : off < 64) (hal : off % 4 = 0)
    (ha : s.agenda = readTurn s.platform off :: rest) :
    step s = .next { s with agenda := rest, reply := .data (lanesOf (readReg (regAt off) s.block)) } := by
  simp [step, nextTurn, ha, takeTurn, readTurn, hostAccess, inWindow, windowBytes, hlt, legalAccess, Access.addr,
    Access.size, accessBytes, offsetOf, hal, serveAccess, State.replied]

/-- The step of a legal write, at whatever register (R55). -/
theorem step_writeTurn {s : State} {off : Nat} {v : Word} {rest : List Turn} (hlt : off < 64) (hal : off % 4 = 0)
    (ha : s.agenda = writeTurn s.platform off v :: rest) :
    step s = .next { s with
      agenda := rest, reply := .written, block := registerWriteEffect (regAt off) v s.block } := by
  simp [step, nextTurn, ha, takeTurn, writeTurn, hostAccess, inWindow, windowBytes, hlt, legalAccess, Access.addr,
    Access.size, accessBytes, offsetOf, hal, serveAccess, State.replied, writeReg_eq_next, State.onBlock]

/-- The step of a completion (40_control.md R103). -/
theorem step_engineTurn {s : State} {rest : List Turn} {effect : Block → Block} (hp : s.block.pendValid = true)
    (he : completionEffect s.block.pendOp = some effect) (ha : s.agenda = .engine :: rest) :
    step s = .next { s with agenda := rest, block := finish (effect s.block) } := by
  simp [step, nextTurn, ha, takeTurn, engineTurn, complete, Block.busy, hp, he, State.onBlock]

end Sys2Proof.Machine
end

