-- ==== Sys2Proof/Tests/Slice0.lean ====
section
/-! SUPPORT. The model's own tests. Expected values are the spec's: words written out from 30_encoding.md R72, the table of
42_encoder.md R145, and the vectors of 95_test_vectors.md, whose row a test's comment names. The witnesses at the end
show, for every statement with hypotheses, a concrete state that meets them. -/

namespace Sys2Proof.Tests

open Sys2Proof Sys2Proof.Machine

/-! ### Helpers -/

/-- The next state, where there is one. -/
def stateOf (o : Host.Outcome State Fault Refusal) : Option State :=
  match o with
  | .next s => some s
  | .fault _ => none
  | .refused _ => none

/-- The refusal, where there is one. -/
def refusalOf (o : Host.Outcome State Fault Refusal) : Option Refusal :=
  match o with
  | .next _ => none
  | .fault _ => none
  | .refused r => some r

/-- The reset state with turns to come, its window at BASE 64 (so that an address below it exists). -/
def ready (turns : List Turn) : State := { State.reset with platform := { baseSlot := 1 }, agenda := turns }

/-- A block with a command in flight: its opcode and its latched operands. -/
def inFlight (op : Opcode) (a b : Code) (m : Message) : Block :=
  { Block.reset with pendValid := true, pendOp := op, pendA := a, pendB := b, pendMsg := m }

/-- The completion of a command in flight, as its STATUS word and RESULT. -/
def completed (op : Opcode) (a b : Code) (m : Message) : Option (Word × Code) :=
  (stateOf (step { ready [.engine] with block := inFlight op a b m })).map fun t => (statusWord t.block, t.block.result)

/-- One write of a word at an offset: the STATUS word after it. -/
def statusAfterWrite (b : Block) (off : Nat) (v : Word) : Option Word :=
  (stateOf (step { ready [writeTurn { baseSlot := 1 } off v] with block := b })).map fun t => statusWord t.block

/-- One read at an offset: the lanes replied. -/
def readReply (b : Block) (off : Nat) : Option Reply :=
  (stateOf (step { ready [readTurn { baseSlot := 1 } off] with block := b })).map (·.reply)

/-! ### Well-formedness: each check refuses an ill-formed word -/

/-- R73: bit 4 set. -/
theorem test_rsv_refuses_bit4 : rsvIsZero 0x00000011#32 = false := by decide
/-- R73: bit 31 set. -/
theorem test_rsv_refuses_bit31 : rsvIsZero 0x80000000#32 = false := by decide
/-- R74: 0x7 and 0xF are reserved. -/
theorem test_op_refuses_reserved : opIsAssigned 0x7#32 = false ∧ opIsAssigned 0xF#32 = false := by decide
theorem test_word_wellFormed_refuses : wordIsWellFormed 0x00000017#32 = false ∧ wordIsWellFormed 0x8#32 = false := by
  decide
theorem test_word_wellFormed_accepts : wordIsWellFormed 0x00000006#32 = true := by decide

/-! ### Decoding: every constructor from its word, written out bit by bit (R70, R72) -/

theorem test_decode_nop : decodeWord 0b00000000000000000000000000000000#32 = .ok .nop := by decide
theorem test_decode_syn : decodeWord 0b00000000000000000000000000000001#32 = .ok .syn := by decide
theorem test_decode_chk : decodeWord 0b00000000000000000000000000000010#32 = .ok .chk := by decide
theorem test_decode_enc : decodeWord 0b00000000000000000000000000000011#32 = .ok .enc := by decide
theorem test_decode_dec : decodeWord 0b00000000000000000000000000000100#32 = .ok .dec := by decide
theorem test_decode_dist : decodeWord 0b00000000000000000000000000000101#32 = .ok .dist := by decide
theorem test_decode_wgt : decodeWord 0b00000000000000000000000000000110#32 = .ok .wgt := by decide
/-- L2, L3: reserved opcodes. -/
theorem test_decode_reserved : decodeWord 0x00000007#32 = .error .reservedOpcode ∧
    decodeWord 0x0000000F#32 = .error .reservedOpcode := by decide
/-- L4, L5: reserved bits, whatever OP holds. -/
theorem test_decode_rsv : decodeWord 0x00000011#32 = .error .reservedBits ∧
    decodeWord 0x80000000#32 = .error .reservedBits := by decide
/-- R53: lane 0 is the lowest byte. -/
theorem test_decode_lanes : decode [0x04#8, 0#8, 0#8, 0#8] = .ok .dec ∧
    decode [0#8, 0#8, 0#8, 0x04#8] = .error .reservedBits ∧ decode [0x04#8] = .error .notOneWord := by decide
theorem test_decode_table_word : decodeTableWord 32 5 = some .dist ∧ decodeTableWord 8 0x106 = some .wgt ∧
    decodeTableWord 32 7 = none ∧ decodeTableWord 64 (2 ^ 40 + 1) = none := by decide

/-- A table word placed by withFetchWord is issued by the first step after reset: SYN, STATUS 0x01 (L6). -/
theorem test_fetch_first_step :
    (stateOf (step (State.reset.withFetchWord 32 1))).map (fun t => (statusWord t.block, t.block.pendOp)) =
      some (0x01#32, 0x1#4) := by decide

/-! ### The codec against the spec's tables -/

/-- R145, the whole codeword table. -/
theorem test_encode_table : candidates.map (fun m => (bchEncode m).toNat) =
    [0, 1335, 2670, 3929, 4587, 5340, 7045, 7858, 9174, 9953, 10680, 11407, 12861, 14090, 14419, 15716] ++
    [17051, 18348, 18677, 19906, 21360, 22087, 22814, 23593, 24909, 25722, 27427, 28180, 28838, 30097, 31432,
      32767] := by decide

/-- 2.3: remainders. -/
theorem test_remainder_vectors :
    [0, 1, 1023, 1024, 3072, 3929, 3933, 12345, 16384, 32766, 32767, 10922, 21845, 4660].map
      (fun v => (bchRemainder (BitVec.ofNat 15 v)).toNat) =
    [0, 1, 1023, 311, 857, 0, 4, 516, 667, 1, 0, 786, 786, 991] := by decide

/-- 2.3: the accumulator after each step of 16384, which tells the accumulator tap from the input tap (C1). -/
theorem test_divider_trace_16384 :
    [[4], [4, 3], [4, 3, 2], [4, 3, 2, 1], [4, 3, 2, 1, 0]].map (fun steps => (steps.foldl divStep 16384#15).toNat) =
      [4976, 4976, 1964, 1964, 667] := by decide

/-- 93_implementation_defined.md: the literal-text variant, which no command uses. -/
theorem test_input_tap_variant : remainderInputTap 16384#15 = 4976#15 ∧
    remainderInputTap 3933#15 = 4#15 := by decide

/-- 2.5, T1 to T14: tag and message. -/
theorem test_decode_vectors :
    [3929, 3933, 0, 1, 16384, 32767, 23, 139, 3934, 20440].map (fun r => bchDecode (BitVec.ofNat 15 r)) =
      [(true, 3), (true, 3), (true, 0), (true, 0), (true, 0), (true, 31), (true, 1), (true, 16), (true, 3),
        (true, 3)] ∧
    [15, 31, 10922, 21845].map (fun r => (bchDecode (BitVec.ofNat 15 r)).1) = [false, false, false, false] := by
  decide +kernel

/-- 2.6 and S7. -/
theorem test_popcount_vectors : [5, 0, 0x7FFF, 3929, 0x2AAA, 0x4000].map (fun x => popcount (BitVec.ofNat 15 x)) =
    [2, 0, 15, 8, 7, 1] := by decide

/-! ### Commands at completion, one step each: STATUS and RESULT -/

/-- 2.3: SYN of 3933 gives RESULT 4 and VALID 0. -/
theorem test_syn_invalid : completed 0x1 3933 0 0 = some (0x02, 4) := by decide
/-- L6: SYN of 0 gives VALID 1. -/
theorem test_syn_valid : completed 0x1 0 0 0 = some (0x06, 0) := by decide
theorem test_chk_valid : completed 0x2 3929 0 0 = some (0x06, 1) := by decide
theorem test_chk_invalid : completed 0x2 3933 0 0 = some (0x02, 0) := by decide
/-- L10. -/
theorem test_enc_3 : completed 0x3 0 0 3 = some (0x02, 3929) := by decide
/-- 2.4: message 4, which the literal divider would give 5340. -/
theorem test_enc_4 : completed 0x3 0 0 4 = some (0x02, 4587) := by decide
/-- P2: 3933 decodes to Success(3), 15 to Failure. -/
theorem test_dec_success : completed 0x4 3933 0 0 = some (0x0A, 3) := by decide +kernel
theorem test_dec_failure : completed 0x4 15 0 0 = some (0x02, 0) := by decide +kernel
theorem test_dist_encoded : completed 0x5 1335 2670 0 = some (0x02, 8) := by decide
theorem test_dist_complement : completed 0x5 0x2AAA 0x5555 0 = some (0x02, 15) := by decide
theorem test_wgt_3929 : completed 0x6 3929 0x7FFF 0 = some (0x02, 8) := by decide

/-! ### The command write (2.2) -/

/-- L1. -/
theorem test_nop : statusAfterWrite Block.reset 0 0 = some 0x00 := by decide
/-- L8: NOP while busy is no overrun. -/
theorem test_nop_busy : statusAfterWrite (inFlight 0x1 0 0 0) 0 0 = some 0x01 := by decide
/-- L2 to L5. -/
theorem test_illegal : [0x7, 0xF, 0x11, 0x80000000].map (fun v => statusAfterWrite Block.reset 0 (BitVec.ofNat 32 v)) =
    [some 0x10, some 0x10, some 0x10, some 0x10] := by decide
/-- L7: DEC while SYN is in flight. -/
theorem test_overrun : statusAfterWrite (inFlight 0x1 0 0 0) 0 4 = some 0x21 := by decide
/-- L9: illegal, not overrun. -/
theorem test_illegal_busy : statusAfterWrite (inFlight 0x1 0 0 0) 0 9 = some 0x11 := by decide
/-- L12: issue clears DONE and keeps VALID. -/
theorem test_issue_clears_done : statusAfterWrite { Block.reset with done := true, valid := true } 0 3 = some 0x05 := by
  decide

/-! ### The bus (2.1) -/

/-- B1. -/
theorem test_reset_reads_zero : [0x00, 0x04, 0x08, 0x0C, 0x10, 0x14, 0x18, 0x3C].map (readReply Block.reset) =
    List.replicate 8 (some (.data [0, 0, 0, 0])) := by decide
/-- B8, B9. -/
theorem test_status_w1c :
    statusAfterWrite { Block.reset with done := true, ill := true, ovr := true } 0x04 0xFFFFFFFF = some 0x02 ∧
    statusAfterWrite { Block.reset with ill := true, ovr := true } 0x04 0x10 = some 0x20 := by decide
/-- B2, B3, B4, B13: the stored operands are masked. -/
theorem test_operand_masks :
    (writeOpa 0xFFFFFFFF#32 Block.reset).opa = 0x7FFF#15 ∧ (writeOpb 0x12348001#32 Block.reset).opb = 1#15 ∧
    (writeMsg 0xFFFFFFE3#32 Block.reset).msg = 3#5 ∧ (writeOpa 0x8000#32 Block.reset).opa = 0#15 := by decide
/-- A read of RESULT 0x0F59 is little-endian on the lanes (R53). -/
theorem test_result_lanes : readReply { Block.reset with result := 0x0F59 } 0x14 =
    some (.data [0x59, 0x0F, 0x00, 0x00]) := by decide
/-- B10, B11, B12: misaligned, byte-wide and half-wide accesses. -/
theorem test_bus_errors :
    refusalOf (step (ready [.host (.read (64 + 2) 4)])) = some (.busError 66) ∧
    refusalOf (step (ready [.host (.write 64 [0x03#8])])) = some (.busError 64) ∧
    refusalOf (step (ready [.host (.read (64 + 8) 2)])) = some (.busError 72) := by decide
/-- L11, P5: reset with DEC in flight. -/
theorem test_reset_abandons :
    (stateOf (step { ready [.reset none] with block := { inFlight 0x4 0x7FFF 0 0 with opa := 0x7FFF } })).map
      (fun t => (statusWord t.block, t.block.opa)) = some (0x00, 0) := by decide

/-! ### MSG's fields and the host notation -/

/-- R36, R37, S3: ecl M and mask d are the message 3. -/
theorem test_msg_fields : msgOfFields (eclOfLevel .m) 3 = 3#5 ∧ levelOfEcl (msgEcl 3) = .m ∧
    patternOfMask (msgMask 3) = .d := by decide
/-- R36: the codes, both ways. -/
theorem test_ecl_codes : [EclLevel.l, .m, .q, .h].map eclOfLevel = [0b01, 0b00, 0b11, 0b10] ∧
    [EclLevel.l, .m, .q, .h].map (fun e => levelOfEcl (eclOfLevel e)) = [.l, .m, .q, .h] := by decide
/-- R78: the two fields are the whole message. -/
theorem test_msg_split : ∀ m : Message, msgOfFields (msgEcl m) (msgMask m) = m := by decide
/-- R79, R80: `wr CMD, ENC` and `clrerr` as bus transactions (P1 step 2, P3). -/
theorem test_host_lines :
    (HostSyntax.Pseudo.issue .enc).expand.map (HostSyntax.HostLine.access { baseSlot := 1 } []) =
      [some (.write 64 [3, 0, 0, 0])] ∧
    HostSyntax.Pseudo.clrerr.expand.map (HostSyntax.HostLine.access { baseSlot := 1 } []) =
      [some (.write 68 [0x30, 0, 0, 0])] := by decide

/-! ### Witnesses: states that meet the hypotheses of the statements -/

/-- The window of the tests. -/
def win : Platform := { baseSlot := 1 }

/-- SYN in flight on 16384, with turns to come. -/
def busyState (turns : List Turn) : State := { ready turns with block := inFlight 0x1 0x4000 0 0 }

theorem inv_ready (turns : List Turn) : (ready turns).Inv := ⟨nofun, nofun, fun _ _ => ⟨rfl, rfl, rfl⟩⟩
theorem inv_busy (turns : List Turn) : (busyState turns).Inv := ⟨fun _ => (by decide : 1 ≤ (0x1#4).toNat ∧ (0x1#4).toNat ≤ 6), fun _ => rfl, nofun⟩

theorem witness_DecodedBytesAreExactlyTheEncoding : Instr.dec.wellFormed = true ∧
    decode [4#8, 0#8, 0#8, 0#8] = .ok .dec := by decide

theorem witness_FetchedTableWordRunsItsCommand : decodeTableWord 32 0 = some .nop ∧ decodeTableWord 32 6 = some .wgt := by
  decide

theorem witness_StepRunsTheDecodedCommand :
    (ready [.host (.write 64 [4, 0, 0, 0])]).agenda =
      .host (.write (ready [.host (.write 64 [4, 0, 0, 0])]).platform.base [4, 0, 0, 0]) :: [] ∧
    decode [4, 0, 0, 0] = .ok .dec := by decide

/-- Each clause of the read statement: every register, the last reserved slot, a misaligned read, a short one. -/
theorem witness_BusReadFollowsTheRegisterMap :
    [(0x00, 4), (0x04, 4), (0x08, 4), (0x0C, 4), (0x10, 4), (0x14, 4), (0x18, 4), (0x3C, 4), (0x3F, 4), (0x3C, 2)].all
      (fun x => decide (x.1 < 64 ∧ (ready [.host (.read (64 + x.1) x.2)]).agenda =
        .host (.read (win.base + x.1) x.2) :: [])) = true := by decide

/-- Each clause of the write statement, likewise. -/
theorem witness_BusWriteFollowsTheRegisterMap :
    [0x00, 0x04, 0x08, 0x0C, 0x10, 0x14, 0x18, 0x3C].all (fun off => decide (off < 64 ∧ off % 4 = 0 ∧
        (ready [writeTurn win off 0x30]).agenda = .host (.write (win.base + off) (lanesOf 0x30)) :: [])) = true ∧
    [(0x3F, [1, 0, 0, 0]), (0x3C, [1#8, 0])].all (fun x => decide (x.1 < 64 ∧
        ¬(x.1 % 4 = 0 ∧ x.2.length = 4))) = true := by decide

/-- An access that is performed, one that is misaligned, and one that is short, at the window's ends. -/
theorem witness_OnlyAlignedWordAccessesArePerformed :
    [Access.read 124 4, .read 127 4, .write 64 [0], .write 64 [0, 0, 0, 0]].all
      (fun a => decide ((ready [.host a]).agenda = .host a :: [] ∧ win.base ≤ a.addr ∧ a.addr < win.base + 64)) =
        true := by decide

/-- One byte below the window, one byte above it, and an access during reset. -/
theorem witness_AccessOutsideWindowOrInResetIsRefused :
    (Access.read 63 4).addr < win.base ∧ win.base + 64 ≤ (Access.read 128 4).addr ∧
    (ready [.reset (some (.read 64 4))]).agenda = .reset (some (.read 64 4)) :: [] := by decide

theorem witness_NonCommandWritesAreIdempotent : 0 < 0x04 ∧ 0x3C < 64 ∧ 0x3C % 4 = 0 := by decide

/-- A STATUS write, a completion and a write of another operand between the write and the read. -/
theorem witness_OperandReadsBackMasked : (busyState []).Inv ∧ 0x10 ∈ [0x08, 0x0C, 0x10] ∧
    ∀ t ∈ [writeTurn win 0x04 0x30, .engine, writeTurn win 0x08 1],
      t.served win = true ∧ t.isReset = false ∧ t.writes win 0x10 = none := ⟨inv_busy _, by decide, by decide⟩

/-- Each clause of the command write: words 7 and 2^32 - 1 (illegal), 0, 6 while busy, 6 while idle. -/
theorem witness_CommandWriteHasOneOutcome :
    [7#32, 0xFFFFFFFF#32, 0#32, 1#32, 6#32].all (fun v => decide ((ready [writeTurn win 0x00 v]).agenda =
      writeTurn (ready []).platform 0x00 v :: [])) = true ∧
    (busyState []).block.pendValid = true ∧ (ready []).block.pendValid = false := by decide

theorem witness_NopHasNoEffect : (busyState [writeTurn win 0x00 0]).agenda =
    writeTurn (busyState []).platform 0x00 0x00000000#32 :: [] := by decide

theorem witness_IdleEngineIssuesTheCommand : (ready []).block.pendValid = false ∧
    (Instr.wgt, 0x6#4) ∈ [(Instr.syn, 0x1#4), (Instr.chk, 0x2#4), (Instr.enc, 0x3#4), (Instr.dec, 0x4#4),
      (Instr.dist, 0x5#4), (Instr.wgt, 0x6#4)] := by decide

theorem witness_BusyEngineDropsTheCommand : (busyState []).block.pendValid = true ∧
    Instr.dec ∈ [Instr.syn, .chk, .enc, .dec, .dist, .wgt] := by decide

/-- For SynReportsTheSyndrome and the five statements of its form: an idle engine, and the operands of 2.2's L10. -/
theorem witness_idle_engine :
    ({ ready [] with block := { Block.reset with opa := 3933, opb := 3929, msg := 3 } } : State).block.pendValid =
      false := by decide

theorem witness_CompletionReadsOnlyTheLatch : (busyState []).Inv ∧ (busyState []).block.pendValid = true :=
  ⟨inv_busy _, by decide⟩

/-- A read, an operand write, an overrun and an illegal write while the command is in flight. -/
theorem witness_CommandInFlightIgnoresHostAccesses : (ready []).block.pendValid = false ∧
    ∀ t ∈ [readTurn win 0x04, writeTurn win 0x08 0x0F59, writeTurn win 0x00 2, writeTurn win 0x00 7],
      t.servedAccess (ready []).platform = true := by decide

/-- Polls and an operand write around the completion; with no engine turn the command is still in flight. -/
theorem witness_PollingBusyFindsTheCommandsResult : (ready []).block.pendValid = false ∧
    ∀ t ∈ [readTurn win 0x04, writeTurn win 0x08 1, Turn.engine, readTurn win 0x04],
      t.served (ready []).platform = true ∧ t.isReset = false ∧ t.writes (ready []).platform 0x00 = none := by decide

theorem witness_EveryCommandInFlightCompletes :
    (busyState [readTurn win 0x04, readTurn win 0x3C]).Inv ∧
    (∀ t ∈ (busyState [readTurn win 0x04, readTurn win 0x3C]).agenda, t.served win = true) ∧
    (ready [.engine]).agenda = .engine :: [] ∧ (ready [.engine]).block.pendValid = false :=
  ⟨inv_busy _, by decide, by decide, by decide⟩

/-! The statements "for every step to a next state": one such step for each of their cases. -/

theorem witness_step_resets : ∃ t, step (busyState [.reset none]) = .next t ∧ (busyState [.reset none]).resets = true :=
  ⟨_, rfl, rfl⟩
theorem witness_step_completes : ∃ t, step (busyState []) = .next t ∧ (busyState []).completes = true := ⟨_, rfl, rfl⟩
theorem witness_step_issues : ∃ t, step (ready [writeTurn win 0x00 6]) = .next t ∧
    (ready [writeTurn win 0x00 6]).issues = true := ⟨_, rfl, rfl⟩
theorem witness_step_overruns : ∃ t, step (busyState [writeTurn win 0x00 1]) = .next t ∧
    ((busyState [writeTurn win 0x00 1]).writes 0x00).any isComputingWord = true ∧
    (busyState [writeTurn win 0x00 1]).block.pendValid = true := ⟨_, rfl, by decide, by decide⟩
theorem witness_step_illegal : ∃ t, step (busyState [writeTurn win 0x00 7]) = .next t ∧
    ((busyState [writeTurn win 0x00 7]).writes 0x00).any isIllegalWord = true := ⟨_, rfl, by decide⟩
theorem witness_step_clears_flags : ∃ t, step (ready [writeTurn win 0x04 0x30]) = .next t ∧
    ((ready [writeTurn win 0x04 0x30]).writes 0x04).any (·.getLsbD 4) = true ∧
    ((ready [writeTurn win 0x04 0x30]).writes 0x04).any (·.getLsbD 5) = true := ⟨_, rfl, by decide, by decide⟩
theorem witness_step_writes_operands : (∃ t, step (ready [writeTurn win 0x08 0xFFFFFFFF]) = .next t) ∧
    (∃ t, step (ready [writeTurn win 0x0C 0xFFFFFFFF]) = .next t) ∧
    ∃ t, step (ready [writeTurn win 0x10 0xFFFFFFFF]) = .next t := ⟨⟨_, rfl⟩, ⟨_, rfl⟩, ⟨_, rfl⟩⟩
/-- A held latch: a read while the command is in flight. -/
theorem witness_step_holds_latch : ∃ t, step (busyState [readTurn win 0x04]) = .next t ∧ t.block.pendValid = true :=
  ⟨_, rfl, by decide⟩
/-- ResultsChangeOnlyAtCompletion: the completion of SYN on 16384 changes RESULT. -/
theorem witness_ResultsChangeOnlyAtCompletion : ∃ t, step (busyState [.engine]) = .next t ∧
    (busyState [.engine]).resets = false ∧ t.block.result ≠ (busyState [.engine]).block.result :=
  ⟨_, rfl, rfl, by decide⟩

theorem witness_StepTakesOneTurnAndKeepsThePlatform : ∃ t, step (busyState [.engine, readTurn win 0x3C]) = .next t ∧
    ∀ a, (busyState [.engine, readTurn win 0x3C]).turn ≠ .host a :=
  ⟨_, rfl, fun _ h => nomatch h⟩

theorem witness_EveryStepKeepsTheInvariant : ∃ t, (busyState [.engine]).Inv ∧ step (busyState [.engine]) = .next t :=
  ⟨_, inv_busy _, rfl⟩

/-- A served turn and one that is not. -/
theorem witness_EngineNeverTrapsAndNeverStops : (busyState [.host (.read 66 4)]).Inv ∧
    (busyState [.engine]).turn.served win = true ∧ (busyState [.host (.read 66 4)]).turn.served win = false :=
  ⟨inv_busy _, by decide, by decide⟩

/-- Every kind of turn after the reset but a computing command. -/
theorem witness_ResetClearsAndAbandons : (busyState [.reset none]).agenda = .reset none :: [] ∧
    ∀ t ∈ [Turn.engine, .reset none, readTurn win 0x14, writeTurn win 0x08 1],
      t.served win = true ∧ t.writes win 0x00 = none := by decide

theorem witness_AfterResetEveryOffsetReadsZero : 0x3C < 64 ∧ 0x3C % 4 = 0 := by decide

/-- Both sides of the equivalence: a command on an idle engine, and an illegal word. -/
theorem witness_ClearErrorFlagsConfirmTheIssue :
    (ready []).Inv ∧ (ready []).block.ill = false ∧ (ready []).block.ovr = false ∧
    (∀ x ∈ [readTurn win 0x04, Turn.engine], x.served win = true ∧ x.isReset = false ∧ x.writes win 0x00 = none ∧
      x.writes win 0x04 = none) ∧
    (∃ t, runSteps 3 ((ready []).withAgenda [writeTurn win 0x00 1, readTurn win 0x04, Turn.engine]) = .next t ∧
      t.block.pendValid = false) ∧
    ∃ t, runSteps 3 ((ready []).withAgenda [writeTurn win 0x00 7, readTurn win 0x04, Turn.engine]) = .next t ∧
      t.block.pendValid = false :=
  ⟨inv_ready _, by decide, by decide, by decide, ⟨_, rfl, by decide⟩, ⟨_, rfl, by decide⟩⟩

/-- The divider's steps at both ends of their range. -/
theorem witness_DividerClearsTheHighBits : 0 ≤ 4 ∧ 4 ≤ 4 ∧ 4 + 10 < 15 ∧ 0 + 10 < 11 := by decide
/-- Single-bit syndromes at both ends of the table's range. -/
theorem witness_RemainderIsLinear : 0 < 15 ∧ 14 < 15 := by decide
/-- A smaller, an equal and a larger distance: candidates 0 and 1 of the received word 0. -/
theorem witness_DecoderFollowsTheTieBreakPolicy : distance 0 (bchEncode 0) < decodeStart.minD ∧
    distance 0x7FFF (bchEncode 0) = decodeStart.minD ∧
    (decodeCandidate 0 decodeStart 0).minD < distance 0 (bchEncode 1) := by decide
theorem witness_ResetValuesOfEveryRegister : 0x00 < 64 ∧ 0x3C < 64 ∧ 0x3C % 4 = 0 := by decide
theorem witness_ZeroSyndromeMeansCodeword : bchRemainder 0x7FFF = 0 ∧ 14 < 15 := by decide
theorem witness_MinimumDistanceIsSeven : bchRemainder 3929 = 0 ∧ bchRemainder 0x7FFF = 0 ∧ (3929#15 ≠ 0x7FFF#15) := by
  decide
theorem witness_ThreeErrorsAreCorrected : popcount 0x4081 ≤ 3 ∧ popcount 0 ≤ 3 := by decide
theorem witness_SentinelTieChangesNoResult : distance 0x7FFF (bchEncode 0) = 15 := by decide
theorem witness_DecoderCommutesWithCodewords : (bchDecode 3933).1 = true := by decide +kernel

end Sys2Proof.Tests
end

namespace Sys2Proof.Machine

/-- A step whose turn is no host access gives the host no new answer. -/
theorem step_reply_of_not_host {s t : State} (h : step s = .next t) (hnot : ∀ a, s.turn ≠ .host a) :
    t.reply = s.reply := by
  rcases step_next_cases h with ⟨addr, size, hread, -, -⟩ | ⟨addr, lanes, v, hwrite, -, -, -⟩ |
    ⟨-, -, rfl⟩ | ⟨effect, -, -, -, rfl⟩ | ⟨-, rfl⟩
  · exact absurd hread (hnot _)
  · exact absurd hwrite (hnot _)
  -- an idle engine's turn, a completion and a reset change at most the block and the agenda
  · simp
  · simp
  · simp

/-- Settles O37, from what every step does to the window and the agenda and from the reply's frame. -/
theorem stepTakesOneTurnAndKeepsThePlatform : Obligations.StepTakesOneTurnAndKeepsThePlatform := by
  intro s t h
  obtain ⟨hplatform, hagenda⟩ := step_platform_agenda h
  exact ⟨hplatform, hagenda, step_reply_of_not_host h⟩

end Sys2Proof.Machine

/-! ## The registers of the block (10_state.md)

A step acts on two groups of registers: those the engine writes (RESULT, VALID, DOK, DONE and the in-flight latch) and
those the host writes (ILL, OVR, OPA, OPB, MSG). For each group one inductive says everything a step can do to it; the
statements about single registers, the invariant and the runs follow by its cases. -/

namespace Sys2Proof.Machine

/-! ### Completion effects, by opcode -/

/-- The six completion effects and the opcodes that name them (R72, R103). -/
theorem completionEffect_cases {op : Opcode} {effect : Block → Block} (h : completionEffect op = some effect) :
    (op = 0x1 ∧ effect = synEffect) ∨ (op = 0x2 ∧ effect = chkEffect) ∨ (op = 0x3 ∧ effect = encEffect) ∨
    (op = 0x4 ∧ effect = decEffect) ∨ (op = 0x5 ∧ effect = distEffect) ∨ (op = 0x6 ∧ effect = wgtEffect) := by
  unfold completionEffect at h
  cases hi : instrOfOpcode op with
  | none => simp [hi] at h
  | some c =>
    have hop : op = opcodeOf c := (instrOfOpcode_eq_some op c).1 hi
    rw [hi] at h
    cases c with
    | nop => cases h
    | syn | chk | enc | dec | dist | wgt => cases h; simp [hop, opcodeOf]

theorem isValid_eq_decide (a : Code) : isValid a = decide (bchRemainder a = 0) := beq_eq_decide _ _

theorem completionEffect_valid {op : Opcode} {effect : Block → Block} (h : completionEffect op = some effect)
    (b : Block) :
    (effect b).valid = if op = 0x1 ∨ op = 0x2 then decide (bchRemainder b.pendA = 0) else b.valid := by
  rcases completionEffect_cases h with ⟨rfl, rfl⟩ | ⟨rfl, rfl⟩ | ⟨rfl, rfl⟩ | ⟨rfl, rfl⟩ | ⟨rfl, rfl⟩ | ⟨rfl, rfl⟩
  all_goals simp [isValid_eq_decide]

theorem completionEffect_dok {op : Opcode} {effect : Block → Block} (h : completionEffect op = some effect)
    (b : Block) : (effect b).dok = if op = 0x4 then (bchDecode b.pendA).1 else b.dok := by
  rcases completionEffect_cases h with ⟨rfl, rfl⟩ | ⟨rfl, rfl⟩ | ⟨rfl, rfl⟩ | ⟨rfl, rfl⟩ | ⟨rfl, rfl⟩ | ⟨rfl, rfl⟩
  all_goals simp

/-- CHK's RESULT as a number (41_syndrome.md R122). -/
theorem setWidth_ofBool_isValid (a : Code) :
    (BitVec.ofBool (isValid a)).setWidth 15 = if bchRemainder a = 0 then 1 else 0 := by
  by_cases h : bchRemainder a = 0#10 <;> simp [isValid_eq_decide, h]

theorem completionEffect_result {op : Opcode} {effect : Block → Block} (h : completionEffect op = some effect)
    (b : Block) :
    (effect b).result =
      if op = 0x1 then (bchRemainder b.pendA).setWidth 15
      else if op = 0x2 then (if bchRemainder b.pendA = 0 then 1 else 0)
      else if op = 0x3 then bchEncode b.pendMsg
      else if op = 0x4 then (if (bchDecode b.pendA).1 = true then (bchDecode b.pendA).2.setWidth 15 else 0)
      else if op = 0x5 then BitVec.ofNat 15 (distance b.pendA b.pendB)
      else BitVec.ofNat 15 (popcount b.pendA) := by
  rcases completionEffect_cases h with ⟨rfl, rfl⟩ | ⟨rfl, rfl⟩ | ⟨rfl, rfl⟩ | ⟨rfl, rfl⟩ | ⟨rfl, rfl⟩ | ⟨rfl, rfl⟩
  all_goals simp [setWidth_ofBool_isValid]

/-! ### The engine's registers -/

/-- Two blocks agree on every register the engine writes. -/
structure Block.SameEngine (b c : Block) : Prop where
  done : b.done = c.done
  valid : b.valid = c.valid
  dok : b.dok = c.dok
  result : b.result = c.result
  pendValid : b.pendValid = c.pendValid
  pendOp : b.pendOp = c.pendOp
  pendA : b.pendA = c.pendA
  pendB : b.pendB = c.pendB
  pendMsg : b.pendMsg = c.pendMsg

theorem Block.SameEngine.refl (b : Block) : b.SameEngine b := by constructor <;> rfl

theorem Block.SameEngine.trans {b c d : Block} (h : b.SameEngine c) (k : c.SameEngine d) : b.SameEngine d where
  done := h.done.trans k.done
  valid := h.valid.trans k.valid
  dok := h.dok.trans k.dok
  result := h.result.trans k.result
  pendValid := h.pendValid.trans k.pendValid
  pendOp := h.pendOp.trans k.pendOp
  pendA := h.pendA.trans k.pendA
  pendB := h.pendB.trans k.pendB
  pendMsg := h.pendMsg.trans k.pendMsg

/-- A completion is a function of the engine's registers (R103: no effect reads OPA, OPB or MSG). -/
theorem Block.SameEngine.finish_effect {b c : Block} (h : b.SameEngine c) {op : Opcode} {effect : Block → Block}
    (he : completionEffect op = some effect) : (finish (effect b)).SameEngine (finish (effect c)) := by
  obtain ⟨hresult, hvalid, hdok⟩ := completionEffect_reads_latch he c b h.pendA h.pendB h.pendMsg h.valid h.dok
  rw [completionEffect_frame he b, completionEffect_frame he c]
  exact {
    done := rfl
    valid := hvalid
    dok := hdok
    result := hresult
    pendValid := rfl
    pendOp := h.pendOp
    pendA := h.pendA
    pendB := h.pendB
    pendMsg := h.pendMsg }

/-- A register write issues a command (40_control.md R101), or leaves the engine's registers as they are. -/
theorem registerWriteEffect_engine (r : Reg) (v : Word) (b : Block) :
    (r = .cmd ∧ isComputingWord v = true ∧ b.pendValid = false ∧
      registerWriteEffect r v b = issue (v.extractLsb' 0 4) b) ∨
    (¬(r = .cmd ∧ isComputingWord v = true ∧ b.pendValid = false) ∧ (registerWriteEffect r v b).SameEngine b) := by
  cases r with
  | cmd =>
    rcases commandWriteEffect_cases v b with ⟨-, hv, he⟩ | ⟨-, hv, -, he⟩ | ⟨-, -, hbusy, he⟩ |
      ⟨-, hv, hidle, -, -, he⟩
    · exact .inr ⟨by simp [hv], by rw [registerWriteEffect, he]; constructor <;> rfl⟩
    · exact .inr ⟨by simp [hv], by rw [registerWriteEffect, he]; constructor <;> rfl⟩
    · exact .inr ⟨by simp [hbusy], by rw [registerWriteEffect, he]; constructor <;> rfl⟩
    · exact .inl ⟨rfl, hv, hidle, he⟩
  | status | opa | opb | msg | result | reserved => exact .inr ⟨by simp, by constructor <;> rfl⟩

/-- Everything a step from `s` to block `b` can do to the engine's registers: reset, completion, issue, or nothing. -/
inductive EngineStep (s : State) (b : Block) : Prop where
  | resets (hr : s.resets = true) (hb : b = s.block.applyReset)
  | completes (effect : Block → Block) (hr : s.resets = false) (hc : s.completes = true)
      (hbusy : s.block.pendValid = true) (he : completionEffect s.block.pendOp = some effect)
      (hb : b = finish (effect s.block))
  | issues (v : Word) (hr : s.resets = false) (hc : s.completes = false) (hi : s.issues = true)
      (hw : s.writes 0x00 = some v) (hv : isComputingWord v = true) (hb : b = issue (v.extractLsb' 0 4) s.block)
  | quiet (hr : s.resets = false) (hc : s.completes = false) (hi : s.issues = false) (hb : b.SameEngine s.block)

theorem issues_of_no_write {s : State} (h : s.writes 0x00 = none) : s.issues = false := by simp [State.issues, h]

/-- The step that writes a register is an issue where the register is CMD, the word a computing command's and BUSY 0. -/
theorem step_engine_of_write {s : State} {b : Block} {off : Nat} {v : Word} (hr : s.resets = false)
    (hc : s.completes = false) (hw : ∀ k, s.writes k = if off = k then some v else none)
    (hb : b = registerWriteEffect (regAt off) v s.block) : EngineStep s b := by
  rcases registerWriteEffect_engine (regAt off) v s.block with ⟨hcmd, hv, hidle, he⟩ | ⟨hnot, hsame⟩
  · have hw0 : s.writes 0x00 = some v := by rw [hw, if_pos ((regAt_eq_cmd off).1 hcmd)]
    exact .issues v hr hc (by simp [State.issues, hw0, hv, Block.busy, hidle]) hw0 hv (hb.trans he)
  · rw [regAt_eq_cmd] at hnot
    refine .quiet hr hc ?_ (hb ▸ hsame)
    by_cases hoff : off = 0
    · simpa [State.issues, hw, hoff, Block.busy] using hnot
    · exact issues_of_no_write (by rw [hw, if_neg hoff])

theorem step_engine {s t : State} (h : step s = .next t) : EngineStep s t.block := by
  rcases step_block_cases h with ⟨a, hturn, hw, hb⟩ | ⟨a, off, v, hturn, -, -, hw, hb⟩ | ⟨hturn, hidle, hb⟩ |
    ⟨effect, hturn, hbusy, he, hb⟩ | ⟨hturn, hb⟩
  · exact .quiet (congrArg Turn.isReset hturn) (by simp [State.completes, hturn]) (issues_of_no_write (hw 0x00))
      (hb ▸ .refl _)
  · exact step_engine_of_write (congrArg Turn.isReset hturn) (by simp [State.completes, hturn]) hw hb
  · exact .quiet (congrArg Turn.isReset hturn) (by simp [State.completes, Block.busy, hidle])
      (issues_of_no_write (congrArg (Turn.writes s.platform 0x00) hturn)) (hb ▸ .refl _)
  · exact .completes effect (congrArg Turn.isReset hturn) (by simp [State.completes, hturn, Block.busy, hbusy]) hbusy
      he hb
  · exact .resets (congrArg Turn.isReset hturn) hb

/-! ### The invariant -/

theorem Block.inv_applyReset (b : Block) : b.applyReset.Inv := ⟨nofun, nofun, fun _ _ => ⟨rfl, rfl, rfl⟩⟩

theorem Block.Inv.of_sameEngine {b c : Block} (hc : c.Inv) (h : b.SameEngine c) : b.Inv where
  latchHoldsCommand := by simpa [h.pendValid, h.pendOp] using hc.latchHoldsCommand
  busyNotDone := by simpa [h.pendValid, h.done] using hc.busyNotDone
  noResultYet := by simpa [h.pendValid, h.done, h.result, h.valid, h.dok] using hc.noResultYet

/-- The opcode field of a computing command's word is that of a computing command (R70, R72). -/
theorem opcode_of_isComputingWord {v : Word} (h : isComputingWord v = true) :
    1 ≤ (v.extractLsb' 0 4).toNat ∧ (v.extractLsb' 0 4).toNat ≤ 6 := by
  simp only [isComputingWord, Bool.and_eq_true, decide_eq_true_eq] at h
  simp only [BitVec.extractLsb'_toNat, Nat.shiftRight_zero]
  omega

/-- Settles O38, by the four things a step can do to the engine's registers. -/
theorem everyStepKeepsTheInvariant : Obligations.EveryStepKeepsTheInvariant := by
  intro s t hinv h
  unfold State.Inv
  cases step_engine h with
  | resets _ hb => exact hb ▸ Block.inv_applyReset _
  | completes _ _ _ _ _ hb => exact hb ▸ ⟨nofun, nofun, nofun⟩
  | issues v _ _ _ _ hv hb => exact hb ▸ ⟨fun _ => opcode_of_isComputingWord hv, fun _ => rfl, nofun⟩
  | quiet _ _ _ hb => exact Block.Inv.of_sameEngine hinv hb

/-- Settles O39: the reset block is what a reset of it gives. -/
theorem invariantHoldsAtReset : Obligations.InvariantHoldsAtReset := Block.inv_applyReset Block.reset

/-! ### The rule of each engine register -/

/-- BUSY's place in STATUS (R25). -/
theorem statusWord_bit0 (s : State) : (statusWord s.block).getLsbD 0 = s.block.pendValid := by
  simp only [statusWord, statusBits, BitVec.getLsbD_setWidth, BitVec.getLsbD_append]
  simp [Block.busy]

/-- Settles O27, by the engine's step and, for the host's view, STATUS's bit 0. -/
theorem busyFollowsIssueAndCompletion : Obligations.BusyFollowsIssueAndCompletion := by
  refine ⟨fun s t h => ?_, statusWord_bit0⟩
  cases step_engine h with
  | resets hr hb => simp [hr, hb]
  | completes _ hr hc _ _ hb => simp [hr, hc, hb]
  | issues _ hr hc hi _ _ hb => simp [hr, hc, hi, hb]
  | quiet hr hc hi hb => simp [hr, hc, hi, hb.pendValid]

/-- Settles O28, by the engine's step. -/
theorem doneFollowsIssueAndCompletion : Obligations.DoneFollowsIssueAndCompletion := by
  intro s t h
  cases step_engine h with
  | resets hr hb => simp [hr, hb]
  | completes _ hr hc _ _ hb => simp [hr, hc, hb]
  | issues _ hr hc hi _ _ hb => simp [hr, hc, hi, hb]
  | quiet hr hc hi hb => simp [hr, hc, hi, hb.done]

/-- Settles O29, with what the six effects do to VALID. -/
theorem validIsWrittenBySynAndChkOnly : Obligations.ValidIsWrittenBySynAndChkOnly := by
  intro s t h
  cases step_engine h with
  | resets hr hb => simp [hr, hb]
  | completes _ hr hc _ he hb => simp [hr, hc, hb, completionEffect_valid he]
  | issues _ hr hc _ _ _ hb => simp [hr, hc, hb]
  | quiet hr hc _ hb => simp [hr, hc, hb.valid]

/-- Settles O30, with what the six effects do to DOK. -/
theorem dokIsWrittenByDecOnly : Obligations.DokIsWrittenByDecOnly := by
  intro s t h
  cases step_engine h with
  | resets hr hb => simp [hr, hb]
  | completes _ hr hc _ he hb => simp [hr, hc, hb, completionEffect_dok he]
  | issues _ hr hc _ _ _ hb => simp [hr, hc, hb]
  | quiet hr hc _ hb => simp [hr, hc, hb.dok]

/-- Settles O34, with what the six effects write to RESULT. -/
theorem resultIsWrittenByCompletionOnly : Obligations.ResultIsWrittenByCompletionOnly := by
  intro s t h
  cases step_engine h with
  | resets hr hb => simp [hr, hb]
  | completes _ hr hc _ he hb => simp only [hr, hc, hb, finish_result, completionEffect_result he]; simp
  | issues _ hr hc _ _ _ hb => simp [hr, hc, hb]
  | quiet hr hc _ hb => simp [hr, hc, hb.result]

/-- Settles O35: after a reset or a completion no command is in flight. -/
theorem latchIsFilledAtIssueAndHeld : Obligations.LatchIsFilledAtIssueAndHeld := by
  intro s t h hbusy
  cases step_engine h with
  | resets _ hb => simp [hb] at hbusy
  | completes _ _ _ _ _ hb => simp [hb] at hbusy
  | issues v _ _ hi hw _ hb => simp [hi, hw, hb]
  | quiet _ _ hi hb => simp [hi, hb.pendA, hb.pendB, hb.pendMsg, hb.pendOp]

/-- Settles O36: of the steps without a reset only a completion writes results. -/
theorem resultsChangeOnlyAtCompletion : Obligations.ResultsChangeOnlyAtCompletion := by
  intro s t h hnr hchange
  cases step_engine h with
  | resets hr _ => simp [hr] at hnr
  | completes _ _ _ hbusy _ hb => exact ⟨hbusy, by simp [hb], by simp [hb]⟩
  | issues _ _ _ _ _ _ hb => simp [hb] at hchange
  | quiet _ _ _ hb => simp [hb.result, hb.valid, hb.dok] at hchange

/-! ### The host's registers -/

/-- Two blocks agree on every register the host writes. -/
structure Block.SameHost (b c : Block) : Prop where
  ill : b.ill = c.ill
  ovr : b.ovr = c.ovr
  opa : b.opa = c.opa
  opb : b.opb = c.opb
  msg : b.msg = c.msg

theorem Block.SameHost.refl (b : Block) : b.SameHost b := by constructor <;> rfl

theorem finish_effect_sameHost {op : Opcode} {effect : Block → Block} (he : completionEffect op = some effect)
    (b : Block) : (finish (effect b)).SameHost b := by
  rw [completionEffect_frame he b]
  constructor <;> rfl

/-- Everything a step from `s` to block `b` can do to the host's registers: reset, one register write, or nothing. -/
inductive HostStep (s : State) (b : Block) : Prop where
  | resets (hr : s.resets = true) (hb : b = s.block.applyReset)
  | writes (off : Nat) (v : Word) (hr : s.resets = false) (hw : ∀ k, s.writes k = if off = k then some v else none)
      (hb : b = registerWriteEffect (regAt off) v s.block)
  | quiet (hr : s.resets = false) (hw : ∀ k, s.writes k = none) (hb : b.SameHost s.block)

theorem step_host {s t : State} (h : step s = .next t) : HostStep s t.block := by
  rcases step_block_cases h with ⟨a, hturn, hw, hb⟩ | ⟨a, off, v, hturn, -, -, hw, hb⟩ | ⟨hturn, -, hb⟩ |
    ⟨effect, hturn, -, he, hb⟩ | ⟨hturn, hb⟩
  · exact .quiet (congrArg Turn.isReset hturn) hw (hb ▸ .refl _)
  · exact .writes off v (congrArg Turn.isReset hturn) hw hb
  · exact .quiet (congrArg Turn.isReset hturn) (fun k => congrArg (Turn.writes s.platform k) hturn) (hb ▸ .refl _)
  · exact .quiet (congrArg Turn.isReset hturn) (fun k => congrArg (Turn.writes s.platform k) hturn)
      (hb ▸ finish_effect_sameHost he _)
  · exact .resets (congrArg Turn.isReset hturn) hb

/-! ### What a register write does to each of the host's registers -/

/-- A CMD write stores no operand and sets ILL or OVR at most (40_control.md R104, R105). -/
theorem commandWriteEffect_host (v : Word) (b : Block) :
    (commandWriteEffect v b).ill = (isIllegalWord v || b.ill) ∧
    (commandWriteEffect v b).ovr = (isComputingWord v && b.pendValid || b.ovr) ∧
    (commandWriteEffect v b).opa = b.opa ∧ (commandWriteEffect v b).opb = b.opb ∧
    (commandWriteEffect v b).msg = b.msg := by
  rcases commandWriteEffect_cases v b with ⟨hill, hv, he⟩ | ⟨hill, hv, -, he⟩ | ⟨hill, hv, hbusy, he⟩ |
    ⟨hill, hv, hidle, -, -, he⟩
  · simp [he, hill, hv]
  · simp [he, hill, hv]
  · simp [he, hill, hv, hbusy]
  · simp [he, hill, hv, hidle]

theorem registerWriteEffect_ill (r : Reg) (v : Word) (b : Block) :
    (registerWriteEffect r v b).ill =
      if r = .cmd then isIllegalWord v || b.ill else if r = .status then b.ill && !v.getLsbD 4 else b.ill := by
  obtain ⟨hill, -⟩ := commandWriteEffect_host v b
  cases r <;> simp [registerWriteEffect, hill]

theorem registerWriteEffect_ovr (r : Reg) (v : Word) (b : Block) :
    (registerWriteEffect r v b).ovr =
      if r = .cmd then isComputingWord v && b.pendValid || b.ovr
      else if r = .status then b.ovr && !v.getLsbD 5 else b.ovr := by
  obtain ⟨-, hovr, -⟩ := commandWriteEffect_host v b
  cases r <;> simp [registerWriteEffect, hovr]

theorem registerWriteEffect_opa (r : Reg) (v : Word) (b : Block) :
    (registerWriteEffect r v b).opa = if r = .opa then v.extractLsb' 0 15 else b.opa := by
  obtain ⟨-, -, hopa, -⟩ := commandWriteEffect_host v b
  cases r <;> simp [registerWriteEffect, hopa]

theorem registerWriteEffect_opb (r : Reg) (v : Word) (b : Block) :
    (registerWriteEffect r v b).opb = if r = .opb then v.extractLsb' 0 15 else b.opb := by
  obtain ⟨-, -, -, hopb, -⟩ := commandWriteEffect_host v b
  cases r <;> simp [registerWriteEffect, hopb]

theorem registerWriteEffect_msg (r : Reg) (v : Word) (b : Block) :
    (registerWriteEffect r v b).msg = if r = .msg then v.extractLsb' 0 5 else b.msg := by
  obtain ⟨-, -, -, -, hmsg⟩ := commandWriteEffect_host v b
  cases r <;> simp [registerWriteEffect, hmsg]

/-! ### The rule of each host register -/

/-- Settles O31: a write at CMD can set ILL, a write at STATUS can clear it, and no other write reaches it. -/
theorem illIsSticky : Obligations.IllIsSticky := by
  intro s t h
  cases step_host h with
  | resets hr hb => simp [hr, hb]
  | writes off v hr hw hb =>
    simp only [hb, registerWriteEffect_ill, regAt_eq_cmd, regAt_eq_status]
    by_cases hcmd : off = 0
    · cases hv : isIllegalWord v <;> simp [hr, hw, hcmd, hv]
    · by_cases hstatus : off = 4
      · cases hbit : v[4] <;> simp [hr, hw, hstatus, hbit]
      · simp [hr, hw, hcmd, hstatus]
  | quiet hr hw hb => simp [hr, hw, hb.ill]

/-- Settles O32: a write at CMD can set OVR, a write at STATUS can clear it, and no other write reaches it. -/
theorem ovrIsSticky : Obligations.OvrIsSticky := by
  intro s t h
  cases step_host h with
  | resets hr hb => simp [hr, hb]
  | writes off v hr hw hb =>
    simp only [hb, registerWriteEffect_ovr, regAt_eq_cmd, regAt_eq_status]
    by_cases hcmd : off = 0
    · cases hv : isComputingWord v
      · simp [hr, hw, hcmd, hv]
      · cases hbusy : s.block.pendValid <;> simp [hr, hw, hcmd, hv]
    · by_cases hstatus : off = 4
      · cases hbit : v[5] <;> simp [hr, hw, hstatus, hbit]
      · simp [hr, hw, hcmd, hstatus]
  | quiet hr hw hb => simp [hr, hw, hb.ovr]

/-- Settles O33, register by register. -/
theorem operandsChangeOnlyByHostWrite : Obligations.OperandsChangeOnlyByHostWrite := by
  intro s t h
  cases step_host h with
  | resets hr hb => simp [hr, hb]
  | writes off v hr hw hb =>
    simp [hb, hr, hw, registerWriteEffect_opa, registerWriteEffect_opb, registerWriteEffect_msg, regAt_eq_opa,
      regAt_eq_opb, regAt_eq_msg, apply_ite_left Option.getD]
  | quiet hr hw hb => simp [hr, hw, hb.opa, hb.opb, hb.msg]

/-- Settles O41: every register of the reset block reads zero, at whatever offset it stands. -/
theorem resetValuesOfEveryRegister : Obligations.ResetValuesOfEveryRegister := by
  have hzero (r : Reg) : readReg r State.reset.block = 0#32 := by cases r <;> rfl
  exact ⟨rfl, fun off _ _ => hzero (regAt off)⟩

/-! ### The command a CMD write carries -/

theorem word_of_decode_ok {lanes : List Byte} {i : Instr} (h : decode lanes = .ok i) :
    ∃ v, wordOfLanes lanes = some v ∧ decodeWord v = .ok i := by
  unfold decode at h
  cases hv : wordOfLanes lanes with
  | none => simp [hv] at h
  | some v => exact ⟨v, rfl, by simpa [hv] using h⟩

/-- A write of four lanes at BASE is served (20_memory.md R51, R52). -/
theorem served_write_base {p : Platform} {lanes : List Byte} (h : lanes.length = 4) :
    (Access.write p.base lanes).served p = true := by
  simp [Access.served, inWindow, windowBytes, legalAccess, Access.addr, Access.size, accessBytes, offsetOf, h]

/-- Settles O6: the write is served, reaches CMD, and its word decodes to the instruction. -/
theorem stepRunsTheDecodedCommand : Obligations.StepRunsTheDecodedCommand := by
  intro s rest lanes i hagenda hdecode
  obtain ⟨v, hlanes, hv⟩ := word_of_decode_ok hdecode
  have hserved : (Access.write s.platform.base lanes).served s.popped.platform = true :=
    served_write_base (length_of_wordOfLanes hlanes)
  have hcmd : regAt (offsetOf s.platform s.platform.base) = .cmd := by simp [regAt_eq_cmd, offsetOf]
  calc step s
      = hostAccess (.write s.platform.base lanes) s.popped := by
        rw [step_eq_takeTurn, turn_of_agenda hagenda, takeTurn]
    _ = commandWrite v (s.popped.replied .written) := by
        simp [hostAccess_served hserved, serveAccess, hlanes, hcmd, writeReg]
    _ = exec i { s with agenda := rest, reply := .written } := by
        simp [commandWrite, hv, State.popped, State.replied, hagenda]

theorem decode_of_decodeTableWord {nbits w : Nat} {i : Instr} (h : decodeTableWord nbits w = some i) :
    decode (lanesOf (BitVec.ofNat 32 (tableBits nbits w))) = .ok i := by
  unfold decodeTableWord at h
  split at h
  · split at h
    · next hd => cases h; exact hd
    · cases h
  · cases h

/-- Settles O5: the table word's lanes decode to the instruction, so O6 applies to the CMD write placed first. -/
theorem fetchedTableWordRunsItsCommand : Obligations.FetchedTableWordRunsItsCommand := by
  intro s nbits w i h
  exact stepRunsTheDecodedCommand (s.withFetchWord nbits w) s.agenda _ i rfl (decode_of_decodeTableWord h)

/-! ### Runs -/

/-- The offsets of OPA, OPB and MSG (R23). -/
theorem operand_offset {off : Nat} (h : off ∈ [0x08, 0x0C, 0x10]) : off = 0x08 ∨ off = 0x0C ∨ off = 0x10 := by
  simpa using h

/-- A step that neither resets nor writes an operand's offset leaves what the host reads there. -/
theorem step_operand_kept {s t : State} {off : Nat} (h : step s = .next t) (hoff : off ∈ [0x08, 0x0C, 0x10])
    (hr : s.resets = false) (hw : s.writes off = none) :
    readReg (regAt off) t.block = readReg (regAt off) s.block := by
  obtain ⟨hopa, hopb, hmsg⟩ := operandsChangeOnlyByHostWrite s t h
  rcases operand_offset hoff with rfl | rfl | rfl
  · simp [regAt, readReg, hopa, hr, hw]
  · simp [regAt, readReg, hopb, hr, hw]
  · simp [regAt, readReg, hmsg, hr, hw]

/-- What the host reads at an operand's offset after writing a word there (R33 to R35). -/
theorem readReg_registerWriteEffect_operand {off : Nat} (hoff : off ∈ [0x08, 0x0C, 0x10]) (v : Word) (b : Block) :
    readReg (regAt off) (registerWriteEffect (regAt off) v b) =
      if off = 0x10 then (v.extractLsb' 0 5).setWidth 32 else (v.extractLsb' 0 15).setWidth 32 := by
  rcases operand_offset hoff with rfl | rfl | rfl <;> rfl

/-- The turns between the write and the read of an operand. -/
def LeavesOperand (off : Nat) (p : Platform) (t : Turn) : Prop :=
  t.served p = true ∧ t.isReset = false ∧ t.writes p off = none

/-- The invariant, and the word `x` is what the host reads at `off`. -/
def HoldsOperand (off : Nat) (x : Word) (s : State) : Prop := s.Inv ∧ readReg (regAt off) s.block = x

theorem step_keeps_holdsOperand {off : Nat} {x : Word} (hoff : off ∈ [0x08, 0x0C, 0x10]) (s : State) (t : Turn)
    (rest : List Turn) (hs : HoldsOperand off x s) (ha : s.agenda = t :: rest) (ht : LeavesOperand off s.platform t) :
    ∃ u, step s = .next u ∧ HoldsOperand off x u := by
  obtain ⟨hinv, hx⟩ := hs
  obtain ⟨hserved, hreset, hwrite⟩ := ht
  rw [← turn_of_agenda ha] at hserved hreset hwrite
  obtain ⟨u, hu⟩ := step_of_served hinv.latchHoldsCommand hserved
  exact ⟨u, hu, everyStepKeepsTheInvariant s u hinv hu, (step_operand_kept hu hoff hreset hwrite).trans hx⟩

/-- A write of an operand, turns that keep it, and a read: the read gets the stored word. -/
theorem runSteps_write_turns_read {s : State} {turns : List Turn} {off : Nat} {v : Word} (hinv : s.Inv)
    (hoff : off ∈ [0x08, 0x0C, 0x10])
    (hagenda : s.agenda = writeTurn s.platform off v :: (turns ++ [readTurn s.platform off]))
    (hturns : ∀ t ∈ turns, LeavesOperand off s.platform t) :
    ∃ t, runSteps (turns.length + 2) s = .next t ∧
      t.reply = .data (lanesOf (readReg (regAt off) (registerWriteEffect (regAt off) v s.block))) := by
  obtain ⟨hlt, hal⟩ : off < 64 ∧ off % 4 = 0 := by
    have := operand_offset hoff
    omega
  have hwrite := step_writeTurn hlt hal hagenda
  obtain ⟨u, hrun, ⟨-, hread⟩, hrest, hplatform⟩ := runSteps_turns_induction
    (HoldsOperand off (readReg (regAt off) (registerWriteEffect (regAt off) v s.block))) (LeavesOperand off)
    (step_keeps_holdsOperand hoff) turns _ [readTurn s.platform off]
    ⟨everyStepKeepsTheInvariant s _ hinv hwrite, rfl⟩ rfl hturns
  have hlast := step_readTurn (s := u) hlt hal (by rw [hrest, hplatform])
  rw [hread] at hlast
  exact ⟨_, by rw [runSteps_succ _ hwrite, runSteps_add _ 1 _ _ hrun, runSteps_succ _ hlast, runSteps_zero], rfl⟩

/-- Settles O12, with the masks of R33 to R35 as what a read finds right after the write. -/
theorem operandReadsBackMasked : Obligations.OperandReadsBackMasked := by
  intro s turns off v hinv hoff hturns
  rw [← readReg_registerWriteEffect_operand hoff v s.block]
  exact runSteps_write_turns_read
    (s := s.withAgenda (writeTurn s.platform off v :: (turns ++ [readTurn s.platform off]))) hinv hoff rfl hturns

/-- The turns after an issue that neither reset nor write a computing command to CMD. -/
def LeavesCommand (p : Platform) (t : Turn) : Prop :=
  t.served p = true ∧ t.isReset = false ∧ ∀ v, t.writes p 0x00 = some v → isComputingWord v = false

/-- The command issued into block `b` with effect `effect` is still in flight, or has completed. -/
def InFlightOrCompleted (b : Block) (effect : Block → Block) (s : State) : Prop :=
  s.block.SameEngine b ∨ s.block.SameEngine (finish (effect b))

theorem step_keeps_inFlightOrCompleted {b : Block} {effect : Block → Block}
    (hop : 1 ≤ b.pendOp.toNat ∧ b.pendOp.toNat ≤ 6) (he : completionEffect b.pendOp = some effect) (s : State)
    (t : Turn) (rest : List Turn) (hs : InFlightOrCompleted b effect s) (ha : s.agenda = t :: rest)
    (ht : LeavesCommand s.platform t) : ∃ u, step s = .next u ∧ InFlightOrCompleted b effect u := by
  obtain ⟨hserved, hreset, hwrite⟩ := ht
  rw [← turn_of_agenda ha] at hserved hreset hwrite
  have hlatch : s.block.pendValid = true → 1 ≤ s.block.pendOp.toNat ∧ s.block.pendOp.toNat ≤ 6 := by
    intro hs'
    rcases hs with hflight | hdone
    · rw [hflight.pendOp]; exact hop
    · simp [hdone.pendValid] at hs'
  obtain ⟨u, hu⟩ := step_of_served hlatch hserved
  refine ⟨u, hu, ?_⟩
  cases step_engine hu with
  | resets hr _ => exact absurd hr (by simp [State.resets, hreset])
  | issues v _ _ _ hw hv _ => exact absurd hv (by simp [hwrite v hw])
  | quiet _ _ _ hb => exact hs.imp hb.trans hb.trans
  | completes effect' _ _ hbusy' he' hb =>
    rcases hs with hflight | hdone
    · rw [hflight.pendOp, he] at he'
      cases he'
      exact .inr (hb ▸ hflight.finish_effect he)
    · simp [hdone.pendValid] at hbusy'

/-- The opcode of a computing command (R72). -/
theorem opcodeOf_computing {c : Instr} (h : c ∈ [Instr.syn, .chk, .enc, .dec, .dist, .wgt]) :
    1 ≤ (opcodeOf c).toNat ∧ (opcodeOf c).toNat ≤ 6 := by
  revert c; decide

/-- A computing command on an idle engine issues (40_control.md R101). -/
theorem exec_of_idle {c : Instr} {s : State} (h : c ∈ [Instr.syn, .chk, .enc, .dec, .dist, .wgt])
    (hidle : s.block.pendValid = false) : exec c s = .next (s.onBlock (issue (opcodeOf c))) := by
  have hnop : c ≠ .nop := by rintro rfl; simp at h
  simp [exec_eq_next, hnop, State.onBlock, issueOrDrop_of_idle _ _ hidle]

/-- Settles O25: after the issue the engine's registers are those of the issue or those of its completion, and BUSY
tells which. -/
theorem pollingBusyFindsTheCommandsResult : Obligations.PollingBusyFindsTheCommandsResult := by
  intro s c turns hc hidle hturns
  obtain ⟨effect, he⟩ := completionEffect_of_command (opcodeOf_computing hc)
  have hnow := step_engineTurn (s := (s.onBlock (issue (opcodeOf c))).withAgenda [.engine]) (rest := []) rfl he rfl
  obtain ⟨later, hrun, hlater, -, -⟩ := runSteps_turns_induction _ LeavesCommand
    (step_keeps_inFlightOrCompleted (b := issue (opcodeOf c) s.block) (opcodeOf_computing hc) he) turns
    ((s.onBlock (issue (opcodeOf c))).withAgenda turns) [] (.inl (.refl _)) (by simp) hturns
  refine ⟨_, _, later, exec_of_idle hc hidle, hnow, hrun, ?_, ?_⟩
  · intro hnotBusy
    rcases hlater with hflight | hdone
    · simp [hflight.pendValid] at hnotBusy
    · exact ⟨hdone.result, hdone.valid, hdone.dok, hdone.done⟩
  · intro hbusy
    rcases hlater with hflight | hdone
    · exact ⟨hflight.result, hflight.valid, hflight.dok, hflight.done⟩
    · simp [hdone.pendValid] at hbusy

end Sys2Proof.Machine

/-! ## The bus (20_memory.md)

What a host access does is said once for every access in the window (`step_of_host_inWindow`); the register map is one
equation for reads and one for writes. -/

namespace Sys2Proof

/-! ### Byte lanes -/

/-- Joining lanes and cutting the word again gives the lanes back (R53). -/
theorem eq_lanesOf_of_wordOfLanes {lanes : List Byte} {v : Word} (h : wordOfLanes lanes = some v) :
    lanes = lanesOf v := by
  match lanes, length_of_wordOfLanes h with
  | [b0, b1, b2, b3], _ =>
    have hv : b3 ++ b2 ++ b1 ++ b0 = v := Option.some.inj h
    subst hv
    have h0 : (b3 ++ b2 ++ b1 ++ b0).extractLsb' 0 8 = b0 := BitVec.extractLsb'_append_eq_right
    have h1 : (b3 ++ b2 ++ b1 ++ b0).extractLsb' 8 8 = b1 :=
      (BitVec.extractLsb'_append_eq_of_le (by decide)).trans BitVec.extractLsb'_append_eq_right
    have h2 : (b3 ++ b2 ++ b1 ++ b0).extractLsb' 16 8 = b2 :=
      (BitVec.extractLsb'_append_eq_of_le (by decide)).trans
        ((BitVec.extractLsb'_append_eq_of_le (by decide)).trans BitVec.extractLsb'_append_eq_right)
    have h3 : (b3 ++ b2 ++ b1 ++ b0).extractLsb' 24 8 = b3 :=
      (BitVec.extractLsb'_append_eq_of_le (by decide)).trans
        ((BitVec.extractLsb'_append_eq_of_le (by decide)).trans BitVec.extractLsb'_append_eq_left)
    rw [lanesOf, h0, h1, h2, h3]

theorem lanesOf_getElem? (v : Word) {k : Nat} (hk : k < 4) : (lanesOf v)[k]? = some (v.extractLsb' (8 * k) 8) := by
  match k, hk with
  | 0, _ | 1, _ | 2, _ | 3, _ => rfl

theorem decode_encode (i : Instr) : decode (encode i) = .ok i := by
  cases i with
  | nop | syn | chk | enc | dec | dist | wgt => rfl

end Sys2Proof

namespace Sys2Proof.Machine

/-- Settles O4: cutting and joining are inverse to each other. -/
theorem byteLanesAreLittleEndian : Obligations.ByteLanesAreLittleEndian := by
  refine ⟨fun v k hk => lanesOf_getElem? v hk, fun lanes v => ⟨eq_lanesOf_of_wordOfLanes, ?_⟩⟩
  rintro rfl
  exact wordOfLanes_lanesOf v

/-- Settles O3: the five commands' bytes are their encodings, and the last word has bit 26 set. -/
theorem opcodeMapBytesDecode : Obligations.OpcodeMapBytesDecode :=
  ⟨decode_encode .nop, decode_encode .chk, decode_encode .enc, decode_encode .dec, decode_encode .dist, rfl⟩

/-! ### Which accesses are performed -/

theorem inWindow_iff (p : Platform) (addr : Nat) :
    inWindow p addr = true ↔ p.base ≤ addr ∧ addr < p.base + 64 := by
  rw [inWindow, Bool.and_eq_true]
  exact and_congr decide_eq_true_iff decide_eq_true_iff

theorem legalAccess_iff (p : Platform) (addr size : Nat) :
    legalAccess p addr size = true ↔ size = 4 ∧ (addr - p.base) % 4 = 0 := by
  simp [legalAccess, accessBytes, offsetOf]

theorem step_of_host_agenda {s : State} {a : Access} {rest : List Turn} (h : s.agenda = .host a :: rest) :
    step s = hostAccess a { s with agenda := rest } := by
  simp [step, nextTurn, h, takeTurn]

/-- A host access of the window is served, or gets the bus error (R52). -/
theorem step_of_host_inWindow {s : State} {a : Access} {rest : List Turn} (h : s.agenda = .host a :: rest)
    (hlo : s.platform.base ≤ a.addr) (hhi : a.addr < s.platform.base + 64) :
    step s =
      if a.size = 4 ∧ (a.addr - s.platform.base) % 4 = 0 then serveAccess a { s with agenda := rest }
      else .refused (.busError a.addr) := by
  simp [step_of_host_agenda h, hostAccess, (inWindow_iff _ _).2 ⟨hlo, hhi⟩, legalAccess_iff]

/-- A legal access has a next state, whatever the state. -/
theorem serveAccess_next {a : Access} (h : a.size = 4) (s : State) : ∃ t, serveAccess a s = .next t := by
  cases a with
  | read addr size => exact ⟨_, rfl⟩
  | write addr lanes =>
    obtain ⟨v, hv⟩ := wordOfLanes_isSome_of_length h
    exact ⟨_, by simp only [serveAccess, hv]; exact writeReg_eq_next _ _ _⟩

/-- Settles O9: a legal access is served and steps, any other is refused. -/
theorem onlyAlignedWordAccessesArePerformed : Obligations.OnlyAlignedWordAccessesArePerformed := by
  intro s rest a hagenda hlo hhi
  rw [step_of_host_inWindow hagenda hlo hhi]
  by_cases hlegal : a.size = 4 ∧ (a.addr - s.platform.base) % 4 = 0
  · simp [hlegal, serveAccess_next]
  · simp [hlegal]

/-- Settles O10, from the two tests a host access or a reset turn makes before it reaches a register. -/
theorem accessOutsideWindowOrInResetIsRefused : Obligations.AccessOutsideWindowOrInResetIsRefused := by
  intro s rest a
  constructor
  · intro hagenda hout
    have hnot : ¬inWindow s.platform a.addr = true := by rw [inWindow_iff]; omega
    simp [step_of_host_agenda hagenda, hostAccess, hnot]
  · intro hagenda
    simp [step, nextTurn, hagenda, takeTurn, resetTurn]

/-! ### The register map -/

/-- `MemRead` by offset (R54), with the STATUS word of 10_state.md R25. -/
theorem readReg_regAt (off : Nat) (b : Block) :
    readReg (regAt off) b =
      if off = 0x04 then
        BitVec.setWidth 32 (BitVec.ofBool b.ovr ++ BitVec.ofBool b.ill ++ BitVec.ofBool b.dok ++
          BitVec.ofBool b.valid ++ BitVec.ofBool b.done ++ BitVec.ofBool b.pendValid)
      else if off = 0x08 then b.opa.setWidth 32
      else if off = 0x0C then b.opb.setWidth 32
      else if off = 0x10 then b.msg.setWidth 32
      else if off = 0x14 then b.result.setWidth 32
      else 0#32 := by
  by_cases hcmd : off = 0x00
  · subst hcmd; rfl
  · simp only [regAt, if_neg hcmd, apply_ite (readReg · b)]
    rfl

/-- Settles O7: the access is read off at its offset, or refused. -/
theorem busReadFollowsTheRegisterMap : Obligations.BusReadFollowsTheRegisterMap := by
  intro s rest off size hlt hagenda
  rw [step_of_host_inWindow hagenda (Nat.le_add_right _ _) (Nat.add_lt_add_left hlt _), ← readReg_regAt]
  simp only [Access.addr, Access.size, serveAccess, offsetOf, Nat.add_sub_cancel_left, State.replied]

theorem writeStatus_eq (v : Word) (b : Block) :
    writeStatus v b = { b with
      ill := if v.getLsbD 4 = true then false else b.ill
      ovr := if v.getLsbD 5 = true then false else b.ovr } := by
  have hclear (x c : Bool) : (x && !c) = if c = true then false else x := by cases c <;> simp
  simp only [writeStatus, hclear]

/-- `MemWrite` by offset (R55), CMD apart. -/
theorem registerWriteEffect_regAt {off : Nat} (hcmd : off ≠ 0x00) (v : Word) (b : Block) :
    registerWriteEffect (regAt off) v b =
      if off = 0x04 then
        { b with
          ill := if v.getLsbD 4 = true then false else b.ill
          ovr := if v.getLsbD 5 = true then false else b.ovr }
      else if off = 0x08 then { b with opa := v.extractLsb' 0 15 }
      else if off = 0x0C then { b with opb := v.extractLsb' 0 15 }
      else if off = 0x10 then { b with msg := v.extractLsb' 0 5 }
      else b := by
  rw [← writeStatus_eq]
  simp only [regAt, if_neg hcmd, apply_ite (registerWriteEffect · v b)]
  simp [registerWriteEffect, writeOpa, writeOpb, writeMsg]

/-- Settles O8: a legal write is `step_writeTurn`, any other is refused. -/
theorem busWriteFollowsTheRegisterMap : Obligations.BusWriteFollowsTheRegisterMap := by
  intro s rest off lanes hlt hagenda
  constructor
  · rintro hal v rfl
    rw [step_writeTurn hlt hal hagenda]
    by_cases hcmd : off = 0x00
    · subst hcmd
      rw [if_pos rfl, commandWrite_eq_next]
      rfl
    · rw [if_neg hcmd, registerWriteEffect_regAt hcmd]
  · intro hbad
    rw [step_of_host_inWindow hagenda (Nat.le_add_right _ _) (Nat.add_lt_add_left hlt _), if_neg]
    · rfl
    · simpa [Access.addr, Access.size, and_comm] using hbad

/-- Writing twice is writing once, at every register but CMD (R57). -/
theorem registerWriteEffect_idempotent {r : Reg} (hr : r ≠ .cmd) (v : Word) (b : Block) :
    registerWriteEffect r v (registerWriteEffect r v b) = registerWriteEffect r v b := by
  cases r with
  | cmd => exact absurd rfl hr
  | status => simp [registerWriteEffect, writeStatus]
  | opa | opb | msg | result | reserved => rfl

/-- Settles O11: the second write finds the register as it leaves it. -/
theorem nonCommandWritesAreIdempotent : Obligations.NonCommandWritesAreIdempotent := by
  intro s rest off v hpos hlt hal
  have hnot : regAt off ≠ .cmd := by rw [Ne, regAt_eq_cmd]; omega
  have hfirst (turns : List Turn) := step_writeTurn (s := s.withAgenda (writeTurn s.platform off v :: turns))
    (v := v) (rest := turns) hlt hal rfl
  refine ⟨_, hfirst rest, ?_⟩
  rw [runSteps_succ _ (hfirst (writeTurn s.platform off v :: rest)), runSteps_succ _ (step_writeTurn hlt hal rfl),
    runSteps_zero]
  simp [registerWriteEffect_idempotent hnot, State.withAgenda]

/-! ### The command in flight and the host (R64) -/

/-- An effect passes the operand registers through and does not read them (40_control.md R103). -/
theorem completionEffect_withOperands {op : Opcode} {effect : Block → Block} (he : completionEffect op = some effect)
    (b : Block) (opa opb : Code) (msg : Message) :
    effect { b with opa := opa, opb := opb, msg := msg } =
      { effect b with opa := opa, opb := opb, msg := msg } := by
  obtain ⟨hresult, hvalid, hdok⟩ := completionEffect_reads_latch he b { b with opa := opa, opb := opb, msg := msg }
    rfl rfl rfl rfl rfl
  rw [completionEffect_frame he { b with opa := opa, opb := opb, msg := msg }, completionEffect_frame he b, hresult,
    hvalid, hdok]

/-- Settles O23: both states complete with the same effect, which passes the operands through. -/
theorem completionReadsOnlyTheLatch : Obligations.CompletionReadsOnlyTheLatch := by
  intro s rest a b m hinv hbusy
  obtain ⟨effect, he⟩ := completionEffect_of_command (hinv.latchHoldsCommand hbusy)
  have hhost := finish_effect_sameHost he s.block
  refine ⟨_, _, step_engineTurn (s := s.withAgenda (.engine :: rest)) hbusy he rfl,
    step_engineTurn (s := State.withAgenda _ (.engine :: rest)) hbusy he rfl, ?_, hhost.opa, hhost.opb, hhost.msg⟩
  simp only [State.withAgenda, completionEffect_withOperands he s.block a b m, finish]

/-- A host access while a command is in flight leaves every register of the engine as it is (40_control.md R104,
R105). -/
theorem step_host_keeps_engine {s t : State} {a : Access} (h : step s = .next t) (hturn : s.turn = .host a)
    (hbusy : s.block.pendValid = true) : t.block.SameEngine s.block := by
  cases step_engine h with
  | resets hr _ => simp [State.resets, hturn, Turn.isReset] at hr
  | completes _ _ hc _ _ _ => simp [State.completes, hturn] at hc
  | issues v _ _ hi hw _ _ => simp [State.issues, hw, Block.busy, hbusy] at hi
  | quiet _ _ _ hb => exact hb

theorem host_of_servedAccess {p : Platform} {t : Turn} (h : t.servedAccess p = true) :
    ∃ a, t = .host a ∧ t.served p = true := by
  cases t with
  | host a => exact ⟨a, rfl, h⟩
  | engine => cases h
  | reset during => cases h

/-- The engine's registers are still those of `b`, the block right after an issue. -/
def InFlight (b : Block) (s : State) : Prop := s.block.SameEngine b

theorem step_keeps_inFlight {b : Block} (hbusy : b.pendValid = true)
    (hop : 1 ≤ b.pendOp.toNat ∧ b.pendOp.toNat ≤ 6) (s : State) (t : Turn) (rest : List Turn) (hs : InFlight b s)
    (ha : s.agenda = t :: rest) (ht : t.servedAccess s.platform = true) : ∃ u, step s = .next u ∧ InFlight b u := by
  obtain ⟨a, hhost, hserved⟩ := host_of_servedAccess ht
  have hturn := turn_of_agenda ha
  obtain ⟨u, hu⟩ := step_of_served (fun _ => hs.pendOp ▸ hop) (hturn ▸ hserved)
  exact ⟨u, hu, (step_host_keeps_engine hu (hturn.trans hhost) (hs.pendValid.trans hbusy)).trans hs⟩

/-- Settles O24: the accesses keep the issued command in flight, and its completion is that of the issued block. -/
theorem commandInFlightIgnoresHostAccesses : Obligations.CommandInFlightIgnoresHostAccesses := by
  intro s c turns hc hidle hturns
  obtain ⟨effect, he⟩ := completionEffect_of_command (opcodeOf_computing hc)
  have hnow := step_engineTurn (s := (s.onBlock (issue (opcodeOf c))).withAgenda [.engine]) (rest := []) rfl he rfl
  obtain ⟨w, hrun, hflight, hrest, -⟩ := runSteps_turns_induction (InFlight (issue (opcodeOf c) s.block))
    (fun p t => t.servedAccess p = true) (step_keeps_inFlight rfl (opcodeOf_computing hc)) turns
    ((s.onBlock (issue (opcodeOf c))).withAgenda (turns ++ [.engine])) [.engine] (.refl _) rfl hturns
  have hlast := step_engineTurn (s := w) hflight.pendValid (by rw [hflight.pendOp]; exact he) hrest
  have hsame := Block.SameEngine.finish_effect hflight he
  exact ⟨_, _, _, exec_of_idle hc hidle, hnow,
    (runSteps_add _ 1 _ _ hrun).trans ((runSteps_succ 0 hlast).trans (runSteps_zero _)),
    hsame.result, hsame.valid, hsame.dok, hsame.done, hsame.pendValid⟩

end Sys2Proof.Machine

/-! ## The encoding of commands (30_encoding.md)

The decoder's three answers are read off the two fields of the word, once each; the opcode map, the byte strings and the
priority of a CMD write's outcomes follow. -/

namespace Sys2Proof.Machine

/-! ### The word decoder, field by field -/

/-- A word is a command's own word exactly if RSV is zero and OP is the command's opcode (R70, R72). -/
theorem eq_encodeWord_iff (v : Word) (i : Instr) :
    v = encodeWord i ↔ v.extractLsb' 4 28 = 0 ∧ v.extractLsb' 0 4 = opcodeOf i := by
  have hsplit : v.extractLsb' 4 28 ++ v.extractLsb' 0 4 = v := by
    rw [BitVec.extractLsb'_append_extractLsb'_eq_extractLsb' (by rfl)]
    exact BitVec.extractLsb'_eq_self
  constructor
  · rintro rfl
    exact ⟨BitVec.extractLsb'_append_eq_left, BitVec.extractLsb'_append_eq_right⟩
  · rintro ⟨hrsv, hop⟩
    rw [← hsplit, hrsv, hop]
    rfl

/-- The three answers of the word decoder, told apart by RSV and then by OP (R75). -/
theorem decodeWord_cases (v : Word) :
    (v.extractLsb' 4 28 ≠ 0#28 ∧ decodeWord v = .error .reservedBits) ∨
    (v.extractLsb' 4 28 = 0#28 ∧ instrOfOpcode (v.extractLsb' 0 4) = none ∧
      decodeWord v = .error .reservedOpcode) ∨
    ∃ i, v.extractLsb' 4 28 = 0#28 ∧ instrOfOpcode (v.extractLsb' 0 4) = some i ∧ decodeWord v = .ok i := by
  unfold decodeWord
  by_cases hrsv : v.extractLsb' 4 28 = 0#28
  · cases hop : instrOfOpcode (v.extractLsb' 0 4) <;> simp [hrsv]
  · simp [hrsv]

theorem decodeWord_eq_ok_iff (v : Word) (i : Instr) : decodeWord v = .ok i ↔ v = encodeWord i := by
  rw [eq_encodeWord_iff, ← instrOfOpcode_eq_some]
  rcases decodeWord_cases v with ⟨hrsv, hd⟩ | ⟨hrsv, hop, hd⟩ | ⟨j, hrsv, hop, hd⟩
  · simp [hd, hrsv]
  · simp [hd, hop]
  · simp [hd, hrsv, hop]

theorem decodeWord_eq_reservedBits_iff (v : Word) :
    decodeWord v = .error .reservedBits ↔ v.extractLsb' 4 28 ≠ 0 := by
  rcases decodeWord_cases v with ⟨hrsv, hd⟩ | ⟨hrsv, -, hd⟩ | ⟨j, hrsv, -, hd⟩
  · simp [hd, hrsv]
  · simp [hd, hrsv]
  · simp [hd, hrsv]

theorem decodeWord_eq_reservedOpcode_iff (v : Word) :
    decodeWord v = .error .reservedOpcode ↔ v.extractLsb' 4 28 = 0 ∧ 7 ≤ (v.extractLsb' 0 4).toNat := by
  rw [← instrOfOpcode_eq_none]
  rcases decodeWord_cases v with ⟨hrsv, hd⟩ | ⟨hrsv, hop, hd⟩ | ⟨j, -, hop, hd⟩
  · simp [hd, hrsv]
  · simp [hd, hrsv, hop]
  · simp [hd, hop]

/-! ### Byte strings and the opcode map -/

/-- Settles O2: four lanes that decode are the lanes of their word, and that word is the command's own. -/
theorem decodedBytesAreExactlyTheEncoding : Obligations.DecodedBytesAreExactlyTheEncoding := by
  intro lanes i _
  constructor
  · intro hdecode
    obtain ⟨v, hlanes, hv⟩ := word_of_decode_ok hdecode
    rw [eq_lanesOf_of_wordOfLanes hlanes, (decodeWord_eq_ok_iff v i).1 hv, encode]
  · rintro rfl
    exact decode_encode i

/-- The seven exact words of R75 are the encodings of the seven commands. -/
theorem mem_opcodeMap_iff (v : Word) (i : Instr) :
    (i, v) ∈ [(Instr.nop, 0x00000000#32), (Instr.syn, 0x00000001#32), (Instr.chk, 0x00000002#32),
      (Instr.enc, 0x00000003#32), (Instr.dec, 0x00000004#32), (Instr.dist, 0x00000005#32),
      (Instr.wgt, 0x00000006#32)] ↔ v = encodeWord i := by
  cases i with
  | nop | syn | chk | enc | dec | dist | wgt => simp [encodeWord, opcodeOf]

/-- Settles O1, from the decoder's three answers. -/
theorem commandDecoderIsTheOpcodeMap : Obligations.CommandDecoderIsTheOpcodeMap :=
  ⟨fun v i => (decodeWord_eq_ok_iff v i).trans (mem_opcodeMap_iff v i).symm, decodeWord_eq_reservedBits_iff,
    decodeWord_eq_reservedOpcode_iff⟩

/-! ### The outcomes of a CMD write (40_control.md R107) -/

/-- The illegal words, by field (R73, R74), are those from 7 on. -/
theorem illegal_fields_iff (v : Word) :
    v.extractLsb' 4 28 ≠ 0 ∨ 7 ≤ (v.extractLsb' 0 4).toNat ↔ 7 ≤ v.toNat := by
  rw [Ne, rsv_zero_iff, BitVec.extractLsb'_toNat, Nat.shiftRight_zero]
  omega

/-- What a CMD write does to the block, by the fields of the word, in the order of priority of R107. -/
theorem commandWriteEffect_eq_of_fields (v : Word) (b : Block) :
    commandWriteEffect v b =
      if v.extractLsb' 4 28 ≠ 0 ∨ 7 ≤ (v.extractLsb' 0 4).toNat then recordIllegal b
      else if v = 0 then b
      else if b.pendValid = true then recordOverrun b
      else issue (v.extractLsb' 0 4) b := by
  simp only [illegal_fields_iff, ← BitVec.toNat_inj (y := 0)]
  rfl

/-- Settles O13: the step of a write at offset 0, with the block's outcome by the fields of the word. -/
theorem commandWriteHasOneOutcome : Obligations.CommandWriteHasOneOutcome := by
  intro s rest v hagenda
  rw [step_writeTurn (by decide) rfl hagenda, (regAt_eq_cmd 0x00).2 rfl, registerWriteEffect,
    commandWriteEffect_eq_of_fields]
  rfl

end Sys2Proof.Machine

/-! ## The life of a command (40_control.md, 70_reset_and_hazards.md R232)

What a CMD write of a computing command does is said for an idle engine (`exec_of_idle`, above) and for a busy one
(`exec_of_busy`). After it the engine's next turn leaves BUSY 0, and ILL and OVR keep what the write left in them. -/

namespace Sys2Proof.Machine

/-! ### The CMD write -/

/-- Settles O14: the word 0 is NOP's own, so its write runs NOP, which answers the state it is given. -/
theorem nopHasNoEffect : Obligations.NopHasNoEffect := by
  have hnop (s : State) : exec .nop s = .next s := rfl
  exact ⟨hnop, fun s rest hagenda =>
    (stepRunsTheDecodedCommand s rest _ .nop hagenda (decode_encode .nop)).trans (hnop _)⟩

/-- The opcode map (R72), NOP left out. -/
theorem opcode_of_mem_issueMap {c : Instr} {op : Opcode}
    (h : (c, op) ∈ [(Instr.syn, 0x1#4), (Instr.chk, 0x2#4), (Instr.enc, 0x3#4), (Instr.dec, 0x4#4),
      (Instr.dist, 0x5#4), (Instr.wgt, 0x6#4)]) :
    c ∈ [Instr.syn, .chk, .enc, .dec, .dist, .wgt] ∧ op = opcodeOf c := by
  cases c with
  | nop => simp at h
  | syn | chk | enc | dec | dist | wgt => simpa [opcodeOf] using h

/-- Settles O15: the block that `issue` gives is the one the statement writes out. -/
theorem idleEngineIssuesTheCommand : Obligations.IdleEngineIssuesTheCommand := by
  intro s c op hmem hidle
  obtain ⟨hc, rfl⟩ := opcode_of_mem_issueMap hmem
  exact exec_of_idle hc hidle

/-- A computing command on a busy engine is an overrun (40_control.md R105). -/
theorem exec_of_busy {c : Instr} {s : State} (h : c ∈ [Instr.syn, .chk, .enc, .dec, .dist, .wgt])
    (hbusy : s.block.pendValid = true) : exec c s = .next (s.onBlock recordOverrun) := by
  have hnop : c ≠ .nop := by rintro rfl; simp at h
  simp [exec_eq_next, hnop, State.onBlock, issueOrDrop_of_busy _ _ hbusy]

/-- Settles O16: the block that an overrun gives is the one the statement writes out. -/
theorem busyEngineDropsTheCommand : Obligations.BusyEngineDropsTheCommand :=
  fun _ _ hc hbusy => exec_of_busy hc hbusy

/-! ### The engine's turn -/

/-- A turn of an idle engine changes nothing but the agenda (R102, log 3). -/
theorem step_engineTurn_of_idle {s : State} {rest : List Turn} (hidle : s.block.pendValid = false)
    (hagenda : s.agenda = .engine :: rest) : step s = .next { s with agenda := rest } := by
  simp [step, nextTurn, hagenda, takeTurn, engineTurn, Block.busy, hidle]

/-- After a turn of the engine no command is in flight: there was none, or it has completed. -/
theorem not_busy_of_step_engine {s t : State} (h : step s = .next t) (hturn : s.turn = .engine) :
    t.block.pendValid = false := by
  have hwrites : s.writes 0x00 = none := by simp [State.writes, hturn, Turn.writes]
  rw [busyFollowsIssueAndCompletion.1 s t h]
  cases hbusy : s.block.pendValid with
  | false => simp [issues_of_no_write hwrites]
  | true => simp [State.completes, hturn, Block.busy, hbusy]

theorem step_keeps_inv (s : State) (t : Turn) (rest : List Turn) (hinv : s.Inv) (ha : s.agenda = t :: rest)
    (ht : t.served s.platform = true) : ∃ u, step s = .next u ∧ u.Inv := by
  obtain ⟨u, hu⟩ := step_of_served hinv.latchHoldsCommand (turn_of_agenda ha ▸ ht)
  exact ⟨u, hu, everyStepKeepsTheInvariant s u hinv hu⟩

/-- Settles O26: the coming turns keep the invariant, and after the last of them the step is a turn of the engine. -/
theorem everyCommandInFlightCompletes : Obligations.EveryCommandInFlightCompletes := by
  refine ⟨fun s hinv hserved => ?_, fun s rest hagenda hidle => step_engineTurn_of_idle hidle hagenda⟩
  obtain ⟨u, hrun, huinv, hrest, -⟩ := runSteps_turns_induction State.Inv (fun p t => t.served p = true)
    step_keeps_inv s.agenda s [] hinv (by simp) hserved
  have hturn : u.turn = .engine := by simp [State.turn, hrest]
  obtain ⟨t, ht⟩ := step_of_served huinv.latchHoldsCommand (by simp [hturn, Turn.served])
  obtain ⟨-, hagenda⟩ := step_platform_agenda ht
  refine ⟨t, ?_, by simp [hagenda, hrest], not_busy_of_step_engine ht hturn, everyStepKeepsTheInvariant u t huinv ht⟩
  rw [runSteps_add _ 1 s u hrun, runSteps_succ _ ht, runSteps_zero]

/-! ### What ILL and OVR tell of a CMD write (R232) -/

/-- The turns after the CMD write of R232: served, and neither a reset nor a write of CMD or STATUS. -/
def LeavesErrorFlags (p : Platform) (t : Turn) : Prop :=
  t.served p = true ∧ t.isReset = false ∧ t.writes p 0x00 = none ∧ t.writes p 0x04 = none

/-- The invariant, and ILL and OVR are those of block `b`. -/
def HoldsErrorFlags (b : Block) (s : State) : Prop := s.Inv ∧ s.block.ill = b.ill ∧ s.block.ovr = b.ovr

theorem LeavesErrorFlags.leavesCommand {p : Platform} {t : Turn} (h : LeavesErrorFlags p t) : LeavesCommand p t := by
  obtain ⟨hserved, hreset, hcmd, -⟩ := h
  exact ⟨hserved, hreset, by simp [hcmd]⟩

/-- A step that neither resets nor writes CMD or STATUS leaves ILL and OVR (10_state.md R30, R31). -/
theorem step_errorFlags_kept {s t : State} (h : step s = .next t) (hr : s.resets = false)
    (hcmd : s.writes 0x00 = none) (hstatus : s.writes 0x04 = none) :
    t.block.ill = s.block.ill ∧ t.block.ovr = s.block.ovr := by
  rw [illIsSticky s t h, ovrIsSticky s t h]
  simp [hr, hcmd, hstatus]

theorem step_keeps_holdsErrorFlags {b : Block} (s : State) (t : Turn) (rest : List Turn) (hs : HoldsErrorFlags b s)
    (ha : s.agenda = t :: rest) (ht : LeavesErrorFlags s.platform t) :
    ∃ u, step s = .next u ∧ HoldsErrorFlags b u := by
  obtain ⟨hinv, hill, hovr⟩ := hs
  obtain ⟨hserved, hreset, hcmd, hstatus⟩ := ht
  obtain ⟨u, hu, huinv⟩ := step_keeps_inv s t rest hinv ha hserved
  rw [← turn_of_agenda ha] at hreset hcmd hstatus
  obtain ⟨hill', hovr'⟩ := step_errorFlags_kept hu hreset hcmd hstatus
  exact ⟨u, hu, huinv, hill'.trans hill, hovr'.trans hovr⟩

/-- A CMD write of a word other than NOP into clear error flags leaves them clear exactly if it issues. -/
theorem commandWriteEffect_errorFlags_clear_iff {v : Word} {b : Block} (hv : v ≠ 0) (hill : b.ill = false)
    (hovr : b.ovr = false) :
    (commandWriteEffect v b).ill = false ∧ (commandWriteEffect v b).ovr = false ↔
      isComputingWord v = true ∧ b.pendValid = false := by
  rcases commandWriteEffect_cases v b with ⟨-, hnot, he⟩ | ⟨-, -, hzero, -⟩ | ⟨-, -, hbusy, he⟩ |
    ⟨-, hcomputing, hidle, -, -, he⟩
  · simp [he, hnot]
  · exact absurd hzero hv
  · simp [he, hbusy]
  · simp [he, hill, hovr, hcomputing, hidle]

theorem commandWriteEffect_of_issue {v : Word} {b : Block} (hv : isComputingWord v = true)
    (hidle : b.pendValid = false) : commandWriteEffect v b = issue (v.extractLsb' 0 4) b := by
  rcases registerWriteEffect_engine .cmd v b with ⟨-, -, -, he⟩ | ⟨hnot, -⟩
  · exact he
  · exact absurd ⟨rfl, hv, hidle⟩ hnot

/-- An issued command that is no longer in flight after turns without a reset or a further command has set DONE. -/
theorem done_of_issued_not_busy {s t : State} {b : Block} {op : Opcode}
    (hop : 1 ≤ op.toNat ∧ op.toNat ≤ 6) (hblock : s.block = issue op b)
    (hturns : ∀ x ∈ s.agenda, LeavesCommand s.platform x) (hrun : runSteps s.agenda.length s = .next t)
    (hidle : t.block.pendValid = false) : t.block.done = true := by
  obtain ⟨effect, he⟩ := completionEffect_of_command hop
  obtain ⟨u, hu, hlater, -, -⟩ := runSteps_turns_induction _ LeavesCommand
    (step_keeps_inFlightOrCompleted (b := issue op b) hop he) s.agenda s [] (.inl (hblock ▸ .refl _))
    (by simp) hturns
  cases hu.symm.trans hrun
  rcases hlater with hflight | hdone
  · simp [hflight.pendValid] at hidle
  · exact hdone.done

/-- Turns that leave ILL and OVR keep what block `b` held of them. -/
theorem runSteps_holdsErrorFlags {s t : State} {b : Block} (hs : HoldsErrorFlags b s)
    (hturns : ∀ x ∈ s.agenda, LeavesErrorFlags s.platform x) (hrun : runSteps s.agenda.length s = .next t) :
    HoldsErrorFlags b t := by
  obtain ⟨u, hu, hheld, -, -⟩ := runSteps_turns_induction (HoldsErrorFlags b) LeavesErrorFlags
    step_keeps_holdsErrorFlags s.agenda s [] hs (by simp) hturns
  cases hu.symm.trans hrun
  exact hheld

/-- A CMD write placed as the next turn acts on the block by the word alone (40_control.md R100). -/
theorem step_commandWrite (s : State) (v : Word) (turns : List Turn) :
    ∃ w, step (s.withAgenda (writeTurn s.platform 0x00 v :: turns)) = .next w ∧
      w.block = commandWriteEffect v s.block ∧ w.agenda = turns ∧ w.platform = s.platform :=
  ⟨_, step_writeTurn (by decide) rfl rfl, rfl, rfl, rfl⟩

/-- Settles O44: the write decides ILL and OVR and the later turns keep them; an issued command that is not in flight
has completed. -/
theorem clearErrorFlagsConfirmTheIssue : Obligations.ClearErrorFlagsConfirmTheIssue := by
  intro s t v turns hinv hill hovr hv hturns hrun hidle
  obtain ⟨w, hwrite, hblock, rfl, hplatform⟩ := step_commandWrite s v turns
  rw [runSteps_succ _ hwrite] at hrun
  have hturns' : ∀ x ∈ w.agenda, LeavesErrorFlags w.platform x := hplatform ▸ hturns
  have hinv' : w.Inv :=
    everyStepKeepsTheInvariant (s.withAgenda (writeTurn s.platform 0x00 v :: w.agenda)) w hinv hwrite
  obtain ⟨-, hill', hovr'⟩ := runSteps_holdsErrorFlags ⟨hinv', rfl, rfl⟩ hturns' hrun
  constructor
  · rw [hill', hovr', hblock, commandWriteEffect_errorFlags_clear_iff hv hill hovr]
  · rintro ⟨hcomputing, hnotBusy⟩
    have hissued := hblock.trans (commandWriteEffect_of_issue hcomputing hnotBusy)
    exact done_of_issued_not_busy (opcode_of_isComputingWord hcomputing) hissued
      (fun x hx => (hturns' x hx).leavesCommand) hrun hidle

end Sys2Proof.Machine

/-! ## The syndrome family (41_syndrome.md, 42_encoder.md R140 to R143)

Both halves rest on linearity over GF(2). The divider subtracts multiples of the generator until no bit above 9 is left,
so its accumulator differs from its input by a multiple and keeps a word of ten bits as it is; sums over the set bits of
a word (`xorOfBits`) carry linear functions from the single bits to every word. -/

namespace Sys2Proof.Machine

/-! ### The steps of the divider (R120, R123) -/

theorem genShifted_getLsbD_top {s : Nat} (hs : s ≤ 4) : (genShifted s).getLsbD (s + 10) = true := by
  match s, hs with
  | 0, _ | 1, _ | 2, _ | 3, _ | 4, _ => rfl

/-- The generator's top bit is bit 10, so the shifted generator has none above `s + 10`. -/
theorem genShifted_getLsbD_above {s j : Nat} (hj : s + 10 < j) : (genShifted s).getLsbD j = false := by
  have hgen : gen.getLsbD (j - s) = false := BitVec.getLsbD_of_ge _ _ (by omega)
  simp [genShifted, hgen]

/-- The step subtracts the shifted generator or nothing. -/
theorem divStep_cases (acc : Code) (s : Nat) :
    (acc.getLsbD (s + 10) = true ∧ divStep acc s = acc ^^^ genShifted s) ∨
    (acc.getLsbD (s + 10) = false ∧ divStep acc s = acc) := by
  cases htested : acc.getLsbD (s + 10) <;> simp [divStep, htested]

theorem divStep_getLsbD_tested (acc : Code) {s : Nat} (hs : s ≤ 4) : (divStep acc s).getLsbD (s + 10) = false := by
  rcases divStep_cases acc s with ⟨hset, hstep⟩ | ⟨hclear, hstep⟩
  · simp [hstep, hset, genShifted_getLsbD_top hs]
  · rw [hstep, hclear]

theorem divStep_getLsbD_above (acc : Code) {s j : Nat} (hj : s + 10 < j) :
    (divStep acc s).getLsbD j = acc.getLsbD j := by
  rcases divStep_cases acc s with ⟨-, hstep⟩ | ⟨-, hstep⟩
  · simp [hstep, genShifted_getLsbD_above hj]
  · rw [hstep]

/-! ### The accumulator after the steps (R123) -/

theorem divAccumulator_eq (v : Code) :
    divAccumulator v = divStep (divStep (divStep (divStep (divStep v 4) 3) 2) 1) 0 := rfl

/-- What holds at the start and is kept by the steps s = 4, 3, 2, 1, 0 holds of the final accumulator. -/
theorem divAccumulator_induction {P : Nat → Code → Prop} {v : Code} (hstart : P 5 v)
    (hstep : ∀ s acc, s ≤ 4 → P (s + 1) acc → P s (divStep acc s)) : P 0 (divAccumulator v) := by
  have h4 := hstep 4 _ (by decide) hstart
  have h3 := hstep 3 _ (by decide) h4
  have h2 := hstep 2 _ (by decide) h3
  have h1 := hstep 1 _ (by decide) h2
  exact hstep 0 _ (by decide) h1

/-- A step on an accumulator without bits above `s + 10` leaves it without bits above `s + 9`. -/
theorem divStep_high_clear {acc : Code} {s : Nat} (hs : s ≤ 4) (hacc : ∀ j, s + 1 + 9 < j → acc.getLsbD j = false)
    (j : Nat) (hj : s + 9 < j) : (divStep acc s).getLsbD j = false := by
  rcases Nat.lt_or_eq_of_le hj with habove | rfl
  · rw [divStep_getLsbD_above acc habove, hacc j (by omega)]
  · exact divStep_getLsbD_tested acc hs

theorem divAccumulator_getLsbD_high (v : Code) {j : Nat} (hj : 9 < j) : (divAccumulator v).getLsbD j = false :=
  divAccumulator_induction (P := fun s acc => ∀ j, s + 9 < j → acc.getLsbD j = false)
    (fun j hj => BitVec.getLsbD_of_ge v j hj) (fun _ _ hs hacc => divStep_high_clear hs hacc) j (by omega)

/-- The remainder is the whole accumulator. -/
theorem divAccumulator_eq_setWidth (v : Code) : divAccumulator v = (bchRemainder v).setWidth 15 := by
  refine BitVec.eq_of_getLsbD_eq fun j hj => ?_
  rcases Nat.lt_or_ge j 10 with hlow | hhigh
  · simp [bchRemainder, hj, hlow]
  · rw [divAccumulator_getLsbD_high v hhigh]
    simp [BitVec.getLsbD_of_ge _ j hhigh]

/-- Settles O45, step by step from the top bit of the shifted generator. -/
theorem dividerClearsTheHighBits : Obligations.DividerClearsTheHighBits := by
  refine ⟨fun acc s hs => ⟨divStep_getLsbD_tested acc hs, fun j hj => divStep_getLsbD_above acc hj⟩,
    fun v => ⟨?_, divAccumulator_eq_setWidth v, Nat.le_of_lt_succ (bchRemainder v).isLt⟩⟩
  refine BitVec.eq_of_getLsbD_eq fun j _ => ?_
  simp [divAccumulator_getLsbD_high v (j := 10 + j) (by omega)]

/-! ### Linearity, and words of ten bits (R124) -/

theorem divAccumulator_xor (a b : Code) : divAccumulator (a ^^^ b) = divAccumulator a ^^^ divAccumulator b := by
  simp only [divAccumulator_eq, divStep_xor]

theorem bchRemainder_xor (a b : Code) : bchRemainder (a ^^^ b) = bchRemainder a ^^^ bchRemainder b := by
  rw [bchRemainder, divAccumulator_xor, BitVec.setWidth_xor]
  rfl

theorem divStep_setWidth (r : Syndrome) (s : Nat) : divStep (r.setWidth 15) s = r.setWidth 15 := by
  simp [divStep]

/-- A word of ten bits is its own remainder: no step subtracts (R121's corner cases). -/
theorem bchRemainder_setWidth (r : Syndrome) : bchRemainder (r.setWidth 15) = r := by
  simp only [bchRemainder, divAccumulator_eq, divStep_setWidth]
  exact BitVec.setWidth_setWidth_of_le r (by decide)

/-! ### Sums over the set bits of a word -/

/-- The XOR of `f i` over the set bits `i < n` of `v`. -/
def xorOfBits {w k : Nat} (v : BitVec w) (f : Nat → BitVec k) (n : Nat) : BitVec k :=
  (List.range n).foldl (fun acc i => if v.getLsbD i then acc ^^^ f i else acc) 0

section
variable {w k : Nat}

@[simp] theorem xorOfBits_zero (v : BitVec w) (f : Nat → BitVec k) : xorOfBits v f 0 = 0#k := rfl

theorem xorOfBits_succ (v : BitVec w) (f : Nat → BitVec k) (n : Nat) :
    xorOfBits v f (n + 1) = xorOfBits v f n ^^^ if v.getLsbD n then f n else 0#k := by
  rw [xorOfBits, List.range_succ, List.foldl_append]
  cases hbit : v.getLsbD n <;> simp [hbit, xorOfBits]

/-- The sum is linear in the word. -/
theorem xorOfBits_xor (a b : BitVec w) (f : Nat → BitVec k) (n : Nat) :
    xorOfBits (a ^^^ b) f n = xorOfBits a f n ^^^ xorOfBits b f n := by
  induction n with
  | zero => simp
  | succ n ih =>
    have hbit : (if (a ^^^ b).getLsbD n then f n else 0#k) =
        (if a.getLsbD n then f n else 0#k) ^^^ if b.getLsbD n then f n else 0#k := by
      rw [BitVec.getLsbD_xor]
      cases a.getLsbD n <;> cases b.getLsbD n <;> simp
    rw [xorOfBits_succ, xorOfBits_succ, xorOfBits_succ, ih, hbit]
    ac_rfl

/-- A linear function goes under the sum. -/
theorem map_xorOfBits {m : Nat} {g : BitVec k → BitVec m} (hg : ∀ x y, g (x ^^^ y) = g x ^^^ g y) (hg0 : g 0#k = 0#m)
    (v : BitVec w) (f : Nat → BitVec k) (n : Nat) : g (xorOfBits v f n) = xorOfBits v (fun i => g (f i)) n := by
  induction n with
  | zero => exact hg0
  | succ n ih => rw [xorOfBits_succ, xorOfBits_succ, hg, ih, apply_ite g, hg0]

theorem xorOfBits_congr (v : BitVec w) {f g : Nat → BitVec k} (n : Nat) (hfg : ∀ i, i < n → f i = g i) :
    xorOfBits v f n = xorOfBits v g n := by
  induction n with
  | zero => rfl
  | succ n ih =>
    rw [xorOfBits_succ, xorOfBits_succ, ih fun i hi => hfg i (Nat.lt_succ_of_lt hi), hfg n (Nat.lt_succ_self n)]

theorem xorOfBits_eq_zero (v : BitVec w) {f : Nat → BitVec k} (n : Nat) (hf : ∀ i, i < n → f i = 0#k) :
    xorOfBits v f n = 0#k := by
  induction n with
  | zero => rfl
  | succ n ih => simp [xorOfBits_succ, ih fun i hi => hf i (Nat.lt_succ_of_lt hi), hf n (Nat.lt_succ_self n)]

theorem getLsbD_xorOfBits_one (v : BitVec w) (n j : Nat) :
    (xorOfBits v (fun i => 1#w <<< i) n).getLsbD j = (decide (j < n) && v.getLsbD j) := by
  induction n with
  | zero => simp
  | succ n ih =>
    have hterm : (if v.getLsbD n then 1#w <<< n else 0#w).getLsbD j = (decide (j = n) && v.getLsbD j) := by
      rw [← BitVec.twoPow_eq, ← BitVec.and_twoPow, BitVec.getLsbD_and, BitVec.getLsbD_twoPow]
      by_cases hj : j = n
      · subst hj
        simpa using fun h => BitVec.lt_of_getLsbD h
      · simp [hj, Ne.symm hj]
    rw [xorOfBits_succ, BitVec.getLsbD_xor, ih, hterm]
    by_cases hj : j = n
    · simp [hj]
    · simp [hj, show j < n + 1 ↔ j < n by omega]

/-- A word is the sum of its set bits. -/
theorem xorOfBits_one (v : BitVec w) : xorOfBits v (fun i => 1#w <<< i) w = v :=
  BitVec.eq_of_getLsbD_eq fun j hj => (getLsbD_xorOfBits_one v w j).trans (by simp [hj])

end

/-! ### The table of single-bit syndromes (R124) -/

theorem bchRemainder_zero : bchRemainder 0#15 = 0#10 := bchRemainder_setWidth 0#10

theorem bchRemainder_one_shiftLeft : ∀ i, i < 15 → bchRemainder (1#15 <<< i) = singleBitSyndrome i := by decide

theorem singleBitSyndrome_ne_zero : ∀ i, i < 15 → singleBitSyndrome i ≠ 0#10 := by decide

theorem bchRemainder_eq_xorOfBits (v : Code) : bchRemainder v = xorOfBits v singleBitSyndrome 15 :=
  calc bchRemainder v = bchRemainder (xorOfBits v (fun i => 1#15 <<< i) 15) := by rw [xorOfBits_one]
    _ = xorOfBits v (fun i => bchRemainder (1#15 <<< i)) 15 := map_xorOfBits bchRemainder_xor bchRemainder_zero v _ 15
    _ = xorOfBits v singleBitSyndrome 15 := xorOfBits_congr v 15 bchRemainder_one_shiftLeft

/-- Settles O46: the divider is linear step by step, and a word is the sum of its set bits. -/
theorem remainderIsLinear : Obligations.RemainderIsLinear :=
  ⟨bchRemainder_xor, bchRemainder_one_shiftLeft, bchRemainder_eq_xorOfBits⟩

/-! ### Multiples of the generator (R125) -/

theorem quotientTimesGen_eq_xorOfBits (q : BitVec 5) : quotientTimesGen q = xorOfBits q genShifted 5 := rfl

theorem quotientTimesGen_xor (p q : BitVec 5) :
    quotientTimesGen (p ^^^ q) = quotientTimesGen p ^^^ quotientTimesGen q :=
  xorOfBits_xor p q genShifted 5

theorem quotientTimesGen_one_shiftLeft : ∀ s, s ≤ 4 → quotientTimesGen (1#5 <<< s) = genShifted s := by decide

theorem eq_zero_of_quotientTimesGen_eq_zero : ∀ q, quotientTimesGen q = 0#15 → q = 0#5 := by decide

theorem quotientTimesGen_injective {p q : BitVec 5} (h : quotientTimesGen p = quotientTimesGen q) : p = q := by
  refine BitVec.xor_eq_zero_iff.1 (eq_zero_of_quotientTimesGen_eq_zero _ ?_)
  rw [quotientTimesGen_xor, h, BitVec.xor_self]

theorem bchRemainder_genShifted : ∀ s, s < 5 → bchRemainder (genShifted s) = 0#10 := by decide

theorem bchRemainder_quotientTimesGen (q : BitVec 5) : bchRemainder (quotientTimesGen q) = 0#10 :=
  (map_xorOfBits bchRemainder_xor bchRemainder_zero q genShifted 5).trans
    (xorOfBits_eq_zero q 5 bchRemainder_genShifted)

/-- A step changes the accumulator by a multiple of the generator, so it keeps its difference to `v` a multiple. -/
theorem divStep_keeps_multiple {v acc : Code} {s : Nat} (hs : s ≤ 4) (h : ∃ q, v = quotientTimesGen q ^^^ acc) :
    ∃ q, v = quotientTimesGen q ^^^ divStep acc s := by
  obtain ⟨q, rfl⟩ := h
  rcases divStep_cases acc s with ⟨-, hstep⟩ | ⟨-, hstep⟩
  · refine ⟨q ^^^ 1#5 <<< s, ?_⟩
    have hcancel : acc = genShifted s ^^^ (acc ^^^ genShifted s) := by
      rw [BitVec.xor_comm acc, ← BitVec.xor_assoc, BitVec.xor_self, BitVec.zero_xor]
    rw [quotientTimesGen_xor, quotientTimesGen_one_shiftLeft s hs, hstep, BitVec.xor_assoc, ← hcancel]
  · exact ⟨q, by rw [hstep]⟩

theorem exists_quotient (v : Code) : ∃ q, v = quotientTimesGen q ^^^ (bchRemainder v).setWidth 15 := by
  have hstart : ∃ q, v = quotientTimesGen q ^^^ v := ⟨0, BitVec.zero_xor.symm⟩
  rw [← divAccumulator_eq_setWidth]
  exact divAccumulator_induction (P := fun _ acc => ∃ q, v = quotientTimesGen q ^^^ acc) hstart
    (fun _ _ hs => divStep_keeps_multiple hs)

theorem bchRemainder_eq_zero_iff_multiple (v : Code) : bchRemainder v = 0#10 ↔ ∃ q, v = quotientTimesGen q := by
  constructor
  · intro hzero
    obtain ⟨q, hq⟩ := exists_quotient v
    exact ⟨q, by simpa [hzero] using hq⟩
  · rintro ⟨q, rfl⟩
    exact bchRemainder_quotientTimesGen q

/-- Settles O47: the steps subtract a multiple of the generator, and distinct quotients give distinct multiples. -/
theorem remainderIsThePolynomialRemainder : Obligations.RemainderIsThePolynomialRemainder := by
  intro v
  refine ⟨?_, bchRemainder_eq_zero_iff_multiple v⟩
  obtain ⟨q, hq⟩ := exists_quotient v
  exact ⟨q, hq, fun q' hq' => quotientTimesGen_injective ((BitVec.xor_left_inj _).1 (hq'.symm.trans hq))⟩

/-! ### Codewords (R126, R127; 42_encoder.md R143) -/

theorem setWidth_shiftLeft_eq_append (m : Message) : m.setWidth 15 <<< 10 = m ++ 0#10 := by
  have happend : (m ++ 0#10).setWidth 15 = m.setWidth 15 <<< 10 ||| (0#10).setWidth 15 :=
    BitVec.setWidth_append_eq_shiftLeft_setWidth_or
  simpa using happend.symm

theorem append_xor_setWidth (m : Message) (r r' : Syndrome) : (m ++ r) ^^^ r'.setWidth 15 = m ++ (r ^^^ r') := by
  have hwide : r'.setWidth 15 = 0#5 ++ r' := BitVec.setWidth_eq_append (by decide)
  rw [hwide]
  exact BitVec.xor_append.trans (by rw [BitVec.xor_zero])

/-- A word is a message and a suffix, and the suffix passes through the remainder. -/
theorem bchRemainder_append (m : Message) (r : Syndrome) :
    bchRemainder (m ++ r) = bchRemainder (m ++ 0#10) ^^^ r := by
  have hsplit : m ++ r = (m ++ 0#10) ^^^ r.setWidth 15 := by rw [append_xor_setWidth, BitVec.zero_xor]
  rw [hsplit, bchRemainder_xor, bchRemainder_setWidth]

/-- The encoder is systematic (42_encoder.md R141). -/
theorem bchEncode_eq_append (m : Message) : bchEncode m = m ++ bchRemainder (m ++ 0#10) := by
  rw [bchEncode, setWidth_shiftLeft_eq_append, append_xor_setWidth, BitVec.zero_xor]

theorem bchRemainder_bchEncode (m : Message) : bchRemainder (bchEncode m) = 0#10 := by
  rw [bchEncode_eq_append, bchRemainder_append, BitVec.xor_self]

theorem bchEncode_injective {m m' : Message} (h : bchEncode m = bchEncode m') : m = m' := by
  have hmessage (m : Message) : (bchEncode m).extractLsb' 10 5 = m := by
    rw [bchEncode_eq_append, BitVec.extractLsb'_append_eq_left]
  rw [← hmessage m, h, hmessage m']

/-- A word of zero syndrome is the codeword of its own top five bits. -/
theorem bchEncode_of_bchRemainder_eq_zero {v : Code} (h : bchRemainder v = 0#10) :
    bchEncode (v.extractLsb' 10 5) = v := by
  have hsplit : v.extractLsb' 10 5 ++ v.extractLsb' 0 10 = v :=
    BitVec.extractLsb'_append_extractLsb' (w := 5) (len := 10)
  rw [← hsplit, bchRemainder_append, BitVec.xor_eq_zero_iff] at h
  rw [bchEncode_eq_append, h, hsplit]

theorem bchRemainder_eq_zero_iff_codeword (v : Code) : bchRemainder v = 0#10 ↔ ∃ m, bchEncode m = v := by
  constructor
  · exact fun h => ⟨_, bchEncode_of_bchRemainder_eq_zero h⟩
  · rintro ⟨m, rfl⟩
    exact bchRemainder_bchEncode m

/-- Settles O48: the encoder appends the remainder of the message, and a flipped bit adds its own syndrome. -/
theorem zeroSyndromeMeansCodeword : Obligations.ZeroSyndromeMeansCodeword := by
  refine ⟨bchRemainder_eq_zero_iff_codeword, fun m m' => bchEncode_injective, fun v i hv hi => ?_⟩
  have hflip : bchRemainder (v ^^^ 1#15 <<< i) = bchRemainder (1#15 <<< i) := by
    rw [bchRemainder_xor, hv]
    exact BitVec.zero_xor
  refine ⟨hflip, ?_⟩
  rw [hflip, bchRemainder_one_shiftLeft i hi]
  exact singleBitSyndrome_ne_zero i hi

/-! ### SYN and CHK: the CMD write and the completion (R121, R122) -/

/-- What an issue and the completion after it make of an idle block, up to the latch (40_control.md R101, R103). -/
theorem finish_effect_issue {op : Opcode} {effect : Block → Block} (he : completionEffect op = some effect) {b : Block}
    (hidle : b.pendValid = false) :
    finish (effect (issue op b)) =
      ({ b with
        done := true
        result := (effect (issue op b)).result
        valid := (effect (issue op b)).valid
        dok := (effect (issue op b)).dok } : Block).withLatchOf (finish (effect (issue op b))) := by
  rw [completionEffect_frame he]
  simp [finish, issue, Block.withLatchOf, hidle]

/-- A computing command's CMD write on an idle engine, and the engine's turn right after it: the effect decides RESULT,
VALID and DOK, and nothing else changes but DONE and the latch (40_control.md R101, R103). -/
theorem exec_engineTurn_of_idle {c : Instr} {effect : Block → Block} {s : State} (rest : List Turn)
    (hc : c ∈ [Instr.syn, .chk, .enc, .dec, .dist, .wgt]) (he : completionEffect (opcodeOf c) = some effect)
    (hidle : s.block.pendValid = false) :
    ∃ t u, exec c s = .next t ∧ step (t.withAgenda (.engine :: rest)) = .next u ∧
      u = { s with
        agenda := rest
        block := ({ s.block with
          done := true
          result := (effect (issue (opcodeOf c) s.block)).result
          valid := (effect (issue (opcodeOf c) s.block)).valid
          dok := (effect (issue (opcodeOf c) s.block)).dok } : Block).withLatchOf u.block } := by
  refine ⟨_, _, exec_of_idle hc hidle, step_engineTurn rfl he rfl, ?_⟩
  exact congrArg (fun b => ({ s with agenda := rest, block := b } : State)) (finish_effect_issue he hidle)

/-- Settles O17: SYN's effect on the issued block, whose latch holds OPA. -/
theorem synReportsTheSyndrome : Obligations.SynReportsTheSyndrome := by
  refine ⟨(decodeWord_eq_ok_iff _ .syn).2 rfl, fun s rest hidle => ?_⟩
  obtain ⟨t, u, hissue, hturn, hu⟩ := exec_engineTurn_of_idle (c := .syn) rest (by simp) rfl hidle
  refine ⟨t, u, hissue, hturn, ?_⟩
  rwa [synEffect_result, synEffect_valid, synEffect_dok, isValid_eq_decide] at hu

/-- Settles O18: CHK's effect on the issued block, whose latch holds OPA. -/
theorem chkReportsValidity : Obligations.ChkReportsValidity := by
  refine ⟨(decodeWord_eq_ok_iff _ .chk).2 rfl, fun s rest hidle => ?_⟩
  obtain ⟨t, u, hissue, hturn, hu⟩ := exec_engineTurn_of_idle (c := .chk) rest (by simp) rfl hidle
  refine ⟨t, u, hissue, hturn, ?_⟩
  rwa [chkEffect_result, chkEffect_valid, chkEffect_dok, setWidth_ofBool_isValid, isValid_eq_decide] at hu

end Sys2Proof.Machine

/-! ## The encoder (42_encoder.md)

The encoder's two terms are linear in the message, so the encoder is; the complement of a codeword is then its sum with
the codeword of 31. The weights are read off the table of the 32 codewords. -/

namespace Sys2Proof.Machine

/-! ### The encoder function (R141, R144) -/

/-- Settles O49: the suffix fills the ten low bits, and the remainder of the whole cancels it. -/
theorem encoderIsSystematic : Obligations.EncoderIsSystematic :=
  fun m => ⟨bchEncode_eq_append m, bchRemainder_bchEncode m⟩

theorem bchEncode_xor (a b : Message) : bchEncode (a ^^^ b) = bchEncode a ^^^ bchEncode b := by
  simp only [bchEncode, BitVec.setWidth_xor, BitVec.shiftLeft_xor_distrib, bchRemainder_xor]
  ac_rfl

theorem bchEncode_zero : bchEncode 0 = 0 := by decide

theorem bchEncode_ones : bchEncode 31 = 0x7FFF := by decide

/-- The complement of a message has the complement of its codeword. -/
theorem bchEncode_complement (m : Message) : bchEncode (m ^^^ 31) = bchEncode m ^^^ 0x7FFF := by
  rw [bchEncode_xor, bchEncode_ones]

/-- The weight column of R145's table. -/
theorem codeword_weights : candidates.map (fun m => popcount (bchEncode m)) =
    [0, 7, 7, 8, 8, 7, 7, 8, 8, 7, 7, 8, 8, 7, 7, 8, 7, 8, 8, 7, 7, 8, 8, 7, 7, 8, 8, 7, 7, 8, 8, 15] := by decide

/-- Settles O50: linearity gives the complement law, and the weights are counted in the table's column. -/
theorem encoderIsLinear : Obligations.EncoderIsLinear := by
  refine ⟨bchEncode_xor, bchEncode_zero, bchEncode_ones, bchEncode_complement, ?_⟩
  rw [codeword_weights]
  decide

/-! ### ENC: the CMD write and the completion (R142) -/

/-- Settles O19: ENC's effect on the issued block, whose latch holds MSG. -/
theorem encReportsTheCodeword : Obligations.EncReportsTheCodeword := by
  refine ⟨(decodeWord_eq_ok_iff _ .enc).2 rfl, fun s rest hidle => ?_⟩
  obtain ⟨t, u, hissue, hturn, hu⟩ := exec_engineTurn_of_idle (c := .enc) rest (by simp) rfl hidle
  refine ⟨t, u, hissue, hturn, ?_⟩
  rwa [encEffect_result, encEffect_valid, encEffect_dok] at hu

end Sys2Proof.Machine

/-! ## The decoder (43_decoder.md)

Three facts carry the derived laws. What the fold over the candidates has found after each of them (`DecodeSummary`)
makes the decoder the unique-nearest rule (R163). The codewords other than 0 and 0x7FFF weigh 7 or 8, so an error word
of at most three ones has no rival (R165). And any four positions lie inside one of these codewords, so an error word of
four or more ones has a rival, and one of six or more is not the nearest (R164). -/

namespace Sys2Proof.Machine

/-! ### The positions of a word's ones (44_distance.md R180) -/

/-- The positions of the ones of a word. -/
def setBits (x : Code) : Finset Nat := (Finset.range 15).filter fun i => x.getLsbD i

@[simp] theorem mem_setBits {x : Code} {i : Nat} : i ∈ setBits x ↔ x.getLsbD i = true := by
  simpa [setBits] using BitVec.lt_of_getLsbD

theorem foldl_add_toNat_eq_card (p : Nat → Bool) (n : Nat) :
    (List.range n).foldl (fun k i => k + (p i).toNat) 0 = ((Finset.range n).filter fun i => p i).card := by
  induction n with
  | zero => rfl
  | succ n ih =>
    rw [List.range_succ, List.foldl_append, ih, Finset.range_add_one, Finset.filter_insert]
    cases hbit : p n <;> simp [hbit]

theorem toNat_ushiftRight_and_one (x : Code) (i : Nat) : ((x >>> i) &&& 1#15).toNat = (x.getLsbD i).toNat := by
  rw [BitVec.and_one_eq_setWidth_ofBool_getLsbD, BitVec.getLsbD_ushiftRight, Nat.add_zero]
  cases x.getLsbD i <;> rfl

theorem popcount_eq_card (x : Code) : popcount x = (setBits x).card := by
  simp only [popcount, toNat_ushiftRight_and_one]
  exact foldl_add_toNat_eq_card x.getLsbD 15

theorem setBits_and (a b : Code) : setBits (a &&& b) = setBits a ∩ setBits b := by
  ext i
  simp

theorem setBits_xor (a b : Code) : setBits (a ^^^ b) = setBits a \ setBits b ∪ setBits b \ setBits a := by
  ext i
  cases ha : a.getLsbD i <;> cases hb : b.getLsbD i <;> simp [ha, hb]

theorem card_le_popcount_and {S : Finset Nat} {a b : Code} (hS : S ⊆ setBits a ∩ setBits b) :
    S.card ≤ popcount (a &&& b) := by
  rw [popcount_eq_card, setBits_and]
  exact Finset.card_le_card hS

/-- Each common one is counted twice on the left and vanishes in the sum. -/
theorem popcount_add_popcount (a b : Code) :
    popcount a + popcount b = popcount (a ^^^ b) + 2 * popcount (a &&& b) := by
  have hunion : (setBits (a ^^^ b)).card = (setBits a \ setBits b).card + (setBits b \ setBits a).card := by
    rw [setBits_xor, Finset.card_union_of_disjoint disjoint_sdiff_sdiff]
  have ha := Finset.card_sdiff_add_card_inter (setBits a) (setBits b)
  have hb := Finset.card_sdiff_add_card_inter (setBits b) (setBits a)
  rw [Finset.inter_comm] at hb
  rw [popcount_eq_card, popcount_eq_card, popcount_eq_card, popcount_eq_card, setBits_and, hunion]
  omega

theorem popcount_and_le (a b : Code) : popcount (a &&& b) ≤ popcount a := by
  rw [popcount_eq_card, popcount_eq_card, setBits_and]
  exact Finset.card_le_card Finset.inter_subset_left

theorem setBits_ones : setBits 0x7FFF = Finset.range 15 := by decide

theorem setBits_injective {a b : Code} (h : setBits a = setBits b) : a = b := by
  refine BitVec.eq_of_getLsbD_eq fun i _ => Bool.eq_iff_iff.2 ?_
  rw [← mem_setBits, h, mem_setBits]

theorem popcount_ones : popcount 0x7FFF = 15 := by decide

theorem popcount_eq_fifteen_iff (x : Code) : popcount x = 15 ↔ x = 0x7FFF := by
  constructor
  · intro hx
    refine setBits_injective (setBits_ones ▸ Finset.eq_of_subset_of_card_le (Finset.filter_subset _ _) ?_)
    rw [Finset.card_range, ← hx, popcount_eq_card]
  · rintro rfl
    exact popcount_ones

theorem and_ones (x : Code) : x &&& 0x7FFF = x := BitVec.and_allOnes

theorem popcount_complement (x : Code) : popcount (x ^^^ 0x7FFF) + popcount x = 15 := by
  have h := popcount_add_popcount x 0x7FFF
  rw [and_ones, popcount_ones] at h
  omega

theorem getLsbD_ones {i : Nat} (hi : i ∈ Finset.range 15) : (0x7FFF : Code).getLsbD i = true :=
  mem_setBits.1 (setBits_ones ▸ hi)

/-- The complement of the sum of two codewords has its ones where the two agree. -/
theorem getLsbD_sum_complement {i : Nat} (hi : i ∈ Finset.range 15) (a b : Message) :
    (bchEncode (a ^^^ b ^^^ 31)).getLsbD i = true ↔ (bchEncode a).getLsbD i = (bchEncode b).getLsbD i := by
  rw [bchEncode_complement, bchEncode_xor, BitVec.getLsbD_xor, BitVec.getLsbD_xor, getLsbD_ones hi]
  simp

theorem eq_of_xor_complement_eq {a b : Message} (h : a ^^^ b ^^^ 31 = 31) : a = b :=
  xor_eq_zero_iff.1 (xor_right_eq_self_iff.1 h)

/-! ### Distances to codewords -/

/-- Moving by a codeword: the error word against `a ^^^ b` is that against `a`, moved by the codeword of `b`. -/
theorem distance_bchEncode_xor (r : Code) (a b : Message) :
    distance r (bchEncode (a ^^^ b)) = popcount (r ^^^ bchEncode a ^^^ bchEncode b) := by
  rw [distance, bchEncode_xor, BitVec.xor_assoc]

theorem distance_xor_bchEncode (r : Code) (a b : Message) :
    distance (r ^^^ bchEncode a) (bchEncode b) = distance r (bchEncode (a ^^^ b)) :=
  (distance_bchEncode_xor r a b).symm

theorem distance_complement (r : Code) (m : Message) :
    distance r (bchEncode (m ^^^ 31)) + distance r (bchEncode m) = 15 := by
  rw [distance_bchEncode_xor, bchEncode_ones]
  exact popcount_complement _

theorem codeword_weight_cases : ∀ m : Message, m ≠ 0 → m ≠ 31 →
    popcount (bchEncode m) = 7 ∨ popcount (bchEncode m) = 8 := by decide

theorem seven_le_codeword_weight : ∀ m : Message, m ≠ 0 → 7 ≤ popcount (bchEncode m) := by decide

/-- The distance of two different codewords is at least 7 (R165's reason). -/
theorem isUniqueNearest_of_popcount_le_three (m : Message) {e : Code} (he : popcount e ≤ 3) :
    IsUniqueNearest (bchEncode m ^^^ e) m := by
  intro m' hm'
  have hadd := popcount_add_popcount e (bchEncode (m ^^^ m'))
  have hand := popcount_and_le e (bchEncode (m ^^^ m'))
  have hweight := seven_le_codeword_weight (m ^^^ m') fun h => hm' (xor_eq_zero_iff.1 h).symm
  have hself : distance (bchEncode m ^^^ e) (bchEncode m) = popcount e := by
    rw [distance, xor_xor_cancel_comm]
  have hother : distance (bchEncode m ^^^ e) (bchEncode m') = popcount (e ^^^ bchEncode (m ^^^ m')) := by
    rw [distance, bchEncode_xor]
    ac_rfl
  omega

/-! ### Any four positions lie inside a codeword -/

/-- Two of the 32 codewords agree on four positions, so the complement of their sum has ones there. -/
theorem exists_codeword_covering {S : Finset Nat} (hne : S.Nonempty) (hS : S ⊆ Finset.range 15) (hcard : S.card ≤ 4) :
    ∃ m : Message, m ≠ 0 ∧ m ≠ 31 ∧ S ⊆ setBits (bchEncode m) := by
  have hfew : S.powerset.card < (Finset.univ : Finset Message).card := by
    rw [Finset.card_powerset]
    exact (Nat.pow_le_pow_right (by decide) hcard).trans_lt (by decide)
  obtain ⟨a, -, b, -, hab, hagree⟩ := Finset.exists_ne_map_eq_of_card_lt_of_maps_to hfew
    (f := fun m => S.filter fun i => (bchEncode m).getLsbD i)
    fun m _ => Finset.mem_powerset.2 (Finset.filter_subset _ _)
  have hcover : S ⊆ setBits (bchEncode (a ^^^ b ^^^ 31)) := by
    intro i hi
    rw [mem_setBits, getLsbD_sum_complement (hS hi), Bool.eq_iff_iff]
    simpa [hi] using Finset.ext_iff.1 hagree i
  refine ⟨a ^^^ b ^^^ 31, fun h0 => ?_, fun h31 => hab (eq_of_xor_complement_eq h31), hcover⟩
  obtain ⟨i, hi⟩ := hne
  have hone := hcover hi
  rw [h0, bchEncode_zero] at hone
  simp at hone

/-- The complement of the sum has odd weight. -/
theorem weight_sum_complement_le_seven {a b : Message} (hab : a ≠ b) (ha : popcount (bchEncode a) = 8)
    (hb : popcount (bchEncode b) = 8) : popcount (bchEncode (a ^^^ b ^^^ 31)) ≤ 7 := by
  have hsum := popcount_add_popcount (bchEncode a) (bchEncode b)
  rw [← bchEncode_xor] at hsum
  have hcomplement := popcount_complement (bchEncode (a ^^^ b))
  rw [← bchEncode_complement] at hcomplement
  by_cases h0 : a ^^^ b ^^^ 31 = 0
  · rw [h0]
    decide
  · have hweight := codeword_weight_cases _ h0 fun h31 => hab (eq_of_xor_complement_eq h31)
    omega

/-- No codeword brings the error word `e` below its own weight. -/
def IsLightest (e : Code) : Prop := ∀ m : Message, popcount e ≤ popcount (e ^^^ bchEncode m)

/-- Four ones of an error word lie inside a codeword of weight at most 8. -/
theorem exists_codeword_covering_ones {e : Code} {S : Finset Nat} (hS : S ⊆ setBits e) (hcard : S.card = 4) :
    ∃ m : Message, m ≠ 0 ∧ S ⊆ setBits e ∩ setBits (bchEncode m) ∧ popcount (bchEncode m) ≤ 8 := by
  obtain ⟨m, h0, h31, hSm⟩ := exists_codeword_covering (Finset.card_pos.1 (by omega))
    (hS.trans (Finset.filter_subset _ _)) hcard.le
  have hweight := codeword_weight_cases m h0 h31
  exact ⟨m, h0, Finset.subset_inter hS hSm, by omega⟩

theorem exists_codeword_not_farther {e : Code} (he : 4 ≤ popcount e) :
    ∃ m : Message, m ≠ 0 ∧ popcount (e ^^^ bchEncode m) ≤ popcount e := by
  rw [popcount_eq_card] at he
  obtain ⟨S, hSe, hcard⟩ := Finset.exists_subset_card_eq he
  obtain ⟨m, h0, hSm, hweight⟩ := exists_codeword_covering_ones hSe hcard
  have hcommon := card_le_popcount_and hSm
  have hadd := popcount_add_popcount e (bchEncode m)
  exact ⟨m, h0, by omega⟩

/-- A codeword covers at most half of its own weight of a lightest error word. -/
theorem IsLightest.two_mul_card_le {e : Code} (he : IsLightest e) {S : Finset Nat} {m : Message}
    (hS : S ⊆ setBits e ∩ setBits (bchEncode m)) : 2 * S.card ≤ popcount (bchEncode m) := by
  have hcommon := card_le_popcount_and hS
  have hadd := popcount_add_popcount e (bchEncode m)
  have hmin := he m
  omega

/-- Any four ones of a lightest error word are cut out by a codeword of weight 8. -/
theorem IsLightest.exists_cut {e : Code} (he : IsLightest e) {S : Finset Nat} (hS : S ⊆ setBits e)
    (hcard : S.card = 4) : ∃ m : Message, popcount (bchEncode m) = 8 ∧
      ∀ i ∈ setBits e, (bchEncode m).getLsbD i = true ↔ i ∈ S := by
  obtain ⟨m, -, hSm, hweight⟩ := exists_codeword_covering_ones hS hcard
  have hhalf := he.two_mul_card_le hSm
  have hall := he.two_mul_card_le (Finset.Subset.refl (setBits e ∩ setBits (bchEncode m)))
  have hcut : S = setBits e ∩ setBits (bchEncode m) := Finset.eq_of_subset_of_card_le hSm (by omega)
  refine ⟨m, by omega, fun i hi => ?_⟩
  rw [hcut, Finset.mem_inter, mem_setBits (x := bchEncode m), and_iff_right hi]

/-- With six ones, three of them together with a fourth `p` and with a fifth `q` are cut out by two codewords of weight
8; the complement of their sum weighs at most 7, but covers the three and the sixth. -/
theorem IsLightest.popcount_le_five {e : Code} (he : IsLightest e) : popcount e ≤ 5 := by
  by_contra hsix
  rw [popcount_eq_card] at hsix
  obtain ⟨T, hT, hTcard⟩ := Finset.exists_subset_card_eq (s := setBits e) (n := 3) (by omega)
  have hrest : 2 < (setBits e \ T).card := by rw [Finset.card_sdiff_of_subset hT]; omega
  obtain ⟨p, hp, q, hq, f, hf, hpq, hpf, hqf⟩ := Finset.two_lt_card.1 hrest
  obtain ⟨hpe, hpT⟩ := Finset.mem_sdiff.1 hp
  obtain ⟨hqe, hqT⟩ := Finset.mem_sdiff.1 hq
  obtain ⟨hfe, hfT⟩ := Finset.mem_sdiff.1 hf
  have hfour {i : Nat} (hi : i ∉ T) : (insert i T).card = 4 := by rw [Finset.card_insert_of_notMem hi, hTcard]
  obtain ⟨a, ha8, ha⟩ := he.exists_cut (Finset.insert_subset hpe hT) (hfour hpT)
  obtain ⟨b, hb8, hb⟩ := he.exists_cut (Finset.insert_subset hqe hT) (hfour hqT)
  have hcover : insert f T ⊆ setBits e ∩ setBits (bchEncode (a ^^^ b ^^^ 31)) := by
    refine Finset.subset_inter (Finset.insert_subset hfe hT) fun i hi => ?_
    have hie : i ∈ setBits e := Finset.insert_subset hfe hT hi
    rw [mem_setBits, getLsbD_sum_complement (Finset.filter_subset _ _ hie), Bool.eq_iff_iff, ha i hie, hb i hie]
    rcases Finset.mem_insert.1 hi with rfl | hiT
    · simp [hfT, hpf.symm, hqf.symm]
    · simp [hiT]
  have hheavy := he.two_mul_card_le hcover
  rw [hfour hfT] at hheavy
  have hab : a ≠ b := by
    rintro rfl
    have hcut : p ∈ insert q T := by rw [← hb p hpe, ha p hpe]; simp
    simp [hpq, hpT] at hcut
  have hlight := weight_sum_complement_le_seven hab ha8 hb8
  omega

/-! ### What the candidates seen so far decide (R163) -/

/-- Two different candidates stand at distance `d`. -/
def TiedAt (r : Code) (seen : List Message) (d : Nat) : Prop :=
  ∃ a ∈ seen, ∃ b ∈ seen, a ≠ b ∧ distance r (bchEncode a) = d ∧ distance r (bchEncode b) = d

theorem TiedAt.append {r : Code} {seen : List Message} {d : Nat} (h : TiedAt r seen d) (m : Message) :
    TiedAt r (seen ++ [m]) d := by
  obtain ⟨a, ha, b, hb, htie⟩ := h
  exact ⟨a, List.mem_append_left _ ha, b, List.mem_append_left _ hb, htie⟩

/-- The running values after the candidates `seen`: a Success names their unique nearest message, and a Failure stands
at the sentinel or at a tie of two nearest ones. -/
inductive DecodeSummary (r : Code) (seen : List Message) : DecodeRun → Prop
  | success {m : Message} (hmem : m ∈ seen)
      (hnearest : ∀ m' ∈ seen, m' ≠ m → distance r (bchEncode m) < distance r (bchEncode m')) :
      DecodeSummary r seen { ok := true, msg := m, minD := distance r (bchEncode m) }
  | failure {msg : Message} {d : Nat} (htie : d = 15 ∨ TiedAt r seen d)
      (hmin : ∀ m' ∈ seen, d ≤ distance r (bchEncode m')) :
      DecodeSummary r seen { ok := false, msg := msg, minD := d }

section
variable {r : Code} {seen : List Message} {run : DecodeRun} {m : Message}

theorem DecodeSummary.minD_le (h : DecodeSummary r seen run) : ∀ m ∈ seen, run.minD ≤ distance r (bchEncode m) := by
  cases h with
  | failure _ hmin => exact hmin
  | @success a _ hnearest =>
    intro m hm
    rcases eq_or_ne m a with rfl | hne
    · exact le_rfl
    · exact (hnearest m hm hne).le

theorem DecodeSummary.append_nearer (h : DecodeSummary r seen run) (hm : distance r (bchEncode m) < run.minD) :
    DecodeSummary r (seen ++ [m]) { ok := true, msg := m, minD := distance r (bchEncode m) } :=
  .success (by simp) (List.forall_mem_append.2 ⟨fun m' hm' _ => hm.trans_le (h.minD_le m' hm'), by simp⟩)

theorem DecodeSummary.append_tied (h : DecodeSummary r seen run) (hnew : m ∉ seen)
    (hm : distance r (bchEncode m) = run.minD) : DecodeSummary r (seen ++ [m]) { run with ok := false } := by
  refine .failure ?_ (List.forall_mem_append.2 ⟨h.minD_le, by simp [hm]⟩)
  cases h with
  | @success a ha _ => exact .inr ⟨a, List.mem_append_left _ ha, m, by simp, fun h => hnew (h ▸ ha), rfl, hm⟩
  | failure htie _ => exact htie.imp_right fun h => h.append m

theorem DecodeSummary.append_farther (h : DecodeSummary r seen run) (hm : run.minD < distance r (bchEncode m)) :
    DecodeSummary r (seen ++ [m]) run := by
  cases h with
  | success hmem hnearest =>
    exact .success (List.mem_append_left _ hmem) (List.forall_mem_append.2 ⟨hnearest, by simpa using fun _ => hm⟩)
  | failure htie hmin =>
    exact .failure (htie.imp_right fun h => h.append m) (List.forall_mem_append.2 ⟨hmin, by simpa using hm.le⟩)

/-- One new candidate, by the three outcomes of R161. -/
theorem DecodeSummary.append_candidate (h : DecodeSummary r seen run) (hnew : m ∉ seen) :
    DecodeSummary r (seen ++ [m]) (decodeCandidate r run m) := by
  rcases Nat.lt_trichotomy (distance r (bchEncode m)) run.minD with hlt | heq | hgt
  · rw [decodeCandidate_of_lt hlt]
    exact h.append_nearer hlt
  · rw [decodeCandidate_of_eq heq]
    exact h.append_tied hnew heq
  · rw [decodeCandidate_of_gt hgt]
    exact h.append_farther hgt

theorem DecodeSummary.foldl {later : List Message} (h : DecodeSummary r seen run) (hnodup : (seen ++ later).Nodup) :
    DecodeSummary r (seen ++ later) (later.foldl (decodeCandidate r) run) := by
  induction later generalizing seen run with
  | nil => simpa using h
  | cons m later ih =>
    have hnew : m ∉ seen := fun hmem => (List.nodup_append.1 hnodup).2.2 m hmem m (by simp) rfl
    rw [List.append_cons] at hnodup ⊢
    exact ih (h.append_candidate hnew) hnodup

end

theorem candidates_nodup : candidates.Nodup := by decide

theorem mem_candidates : ∀ m : Message, m ∈ candidates := by decide

theorem decodeSummary_candidates (r : Code) :
    DecodeSummary r candidates (candidates.foldl (decodeCandidate r) decodeStart) :=
  have hstart : DecodeSummary r [] decodeStart := .failure (.inl rfl) (by simp)
  hstart.foldl candidates_nodup

theorem IsUniqueNearest.eq_of_le {r : Code} {a b : Message} (ha : IsUniqueNearest r a)
    (hb : distance r (bchEncode b) ≤ distance r (bchEncode a)) : b = a := by
  by_contra hne
  exact absurd (ha b hne) (by omega)

theorem TiedAt.not_isUniqueNearest {r : Code} {d : Nat} (h : TiedAt r candidates d)
    (hmin : ∀ m ∈ candidates, d ≤ distance r (bchEncode m)) (m : Message) : ¬IsUniqueNearest r m := by
  obtain ⟨a, -, b, -, hab, ha, hb⟩ := h
  intro hm
  have hd := hmin m (mem_candidates m)
  exact hab ((hm.eq_of_le (ha.trans_le hd)).trans (hm.eq_of_le (hb.trans_le hd)).symm)

/-- The sentinel stands only while nothing is seen: of a codeword and its complement, one is within 7 (R166). -/
theorem not_forall_fifteen_le (r : Code) : ¬∀ m ∈ candidates, 15 ≤ distance r (bchEncode m) := by
  intro hmin
  have hsum := distance_complement r 0
  have h0 := hmin 0 (mem_candidates _)
  have h31 := hmin (0 ^^^ 31) (mem_candidates _)
  omega

/-- The decoder's two results, and what each says of the received word. -/
theorem bchDecode_cases (r : Code) :
    (∃ m, bchDecode r = (true, m) ∧ IsUniqueNearest r m) ∨
    ((bchDecode r).1 = false ∧ ∀ m, ¬IsUniqueNearest r m) := by
  have h := decodeSummary_candidates r
  rw [bchDecode]
  generalize candidates.foldl (decodeCandidate r) decodeStart = final at h
  cases h with
  | @success m hmem hnearest => exact .inl ⟨m, rfl, fun m' hne => hnearest m' (mem_candidates m') hne⟩
  | failure htie hmin =>
    rcases htie with rfl | htie
    · exact absurd hmin (not_forall_fifteen_le r)
    · exact .inr ⟨rfl, htie.not_isUniqueNearest hmin⟩

theorem IsUniqueNearest.unique {r : Code} {a b : Message} (ha : IsUniqueNearest r a) (hb : IsUniqueNearest r b) :
    a = b := by
  by_contra hne
  exact (ha b (Ne.symm hne)).asymm (hb a hne)

theorem bchDecode_eq_success_iff (r : Code) (m : Message) : bchDecode r = (true, m) ↔ IsUniqueNearest r m := by
  rcases bchDecode_cases r with ⟨a, hdecode, ha⟩ | ⟨hdecode, hnone⟩
  · rw [hdecode]
    constructor
    · rintro ⟨⟩
      exact ha
    · exact fun hm => by rw [ha.unique hm]
  · exact iff_of_false (fun h => by simp [h] at hdecode) (hnone m)

theorem bchDecode_ok_iff (r : Code) : (bchDecode r).1 = true ↔ ∃ m, IsUniqueNearest r m := by
  rcases bchDecode_cases r with ⟨a, hdecode, ha⟩ | ⟨hdecode, hnone⟩
  · exact iff_of_true (by rw [hdecode]) ⟨a, ha⟩
  · exact iff_of_false (by simp [hdecode]) (not_exists.2 hnone)

/-- Settles O56: the running values after all candidates name the unique nearest message or a tie. -/
theorem decoderFindsTheUniqueNearestMessage : Obligations.DecoderFindsTheUniqueNearestMessage :=
  fun r => ⟨bchDecode_eq_success_iff r, by rw [← bchDecode_ok_iff, Bool.not_eq_true]⟩

/-- Settles O55, from the three outcomes of one candidate. -/
theorem decoderFollowsTheTieBreakPolicy : Obligations.DecoderFollowsTheTieBreakPolicy := by
  refine ⟨rfl, rfl, by decide, fun r run m => ⟨decodeCandidate_of_lt, fun h => ?_, decodeCandidate_of_gt⟩,
    fun r => by simp [bchDecode]⟩
  rw [decodeCandidate_of_eq h]
  exact ⟨rfl, rfl⟩

/-! ### The radius of success (R164, R165) -/

/-- Settles O58: the sent message is the unique nearest one. -/
theorem threeErrorsAreCorrected : Obligations.ThreeErrorsAreCorrected :=
  fun m _ he => (bchDecode_eq_success_iff _ m).2 (isUniqueNearest_of_popcount_le_three m he)

theorem bchDecode_bchEncode (m : Message) : bchDecode (bchEncode m) = (true, m) := by
  have h := threeErrorsAreCorrected m 0 (by decide)
  rwa [BitVec.ofNat_eq_ofNat, BitVec.xor_zero] at h

/-- The error word against a nearest codeword is lightest. -/
theorem exists_isLightest (r : Code) : ∃ m, IsLightest (r ^^^ bchEncode m) := by
  obtain ⟨m, hmin⟩ := Finite.exists_min fun m => distance r (bchEncode m)
  exact ⟨m, fun m' => distance_bchEncode_xor r m m' ▸ hmin (m ^^^ m')⟩

theorem IsUniqueNearest.distance_le_three {r : Code} {m : Message} (h : IsUniqueNearest r m) :
    distance r (bchEncode m) ≤ 3 := by
  by_contra hfar
  obtain ⟨a, ha, hle⟩ := exists_codeword_not_farther (e := r ^^^ bchEncode m) (Nat.lt_of_not_le hfar)
  rw [← distance_bchEncode_xor] at hle
  exact ha (xor_left_eq_self_iff.1 (h.eq_of_le hle))

/-- Settles O57: a lightest error word has at most five ones, and with four or more it has a rival. -/
theorem decoderSucceedsWithinRadiusThree : Obligations.DecoderSucceedsWithinRadiusThree := by
  intro r
  refine ⟨(exists_isLightest r).imp fun m hm => hm.popcount_le_five, ?_⟩
  rw [bchDecode_ok_iff]
  refine exists_congr fun m => ⟨fun h => h.distance_le_three, fun h => ?_⟩
  have hnearest := isUniqueNearest_of_popcount_le_three m h
  rwa [xor_xor_cancel_comm_assoc] at hnearest

/-! ### The sentinel and the complement (R166) -/

/-- Settles O59: distance 15 is the complement, which is the codeword of the complemented message. -/
theorem sentinelTieChangesNoResult : Obligations.SentinelTieChangesNoResult := by
  intro r m
  have hsentinel : distance r (bchEncode m) = 15 ↔ r = bchEncode m ^^^ 0x7FFF := by
    rw [distance, popcount_eq_fifteen_iff, xor_eq_iff_left_eq, BitVec.xor_comm]
  refine ⟨hsentinel, by rw [bchEncode_complement], fun h => ⟨?_, ?_⟩⟩
  · rw [decodeCandidate_of_eq h]
  · rw [hsentinel.1 h, ← bchEncode_complement, bchDecode_bchEncode]

/-! ### Decoding and codewords (R167) -/

theorem isUniqueNearest_xor_bchEncode {r : Code} {x : Message} (h : IsUniqueNearest r x) (m : Message) :
    IsUniqueNearest (r ^^^ bchEncode m) (x ^^^ m) := by
  intro m' hne
  have hmoved : m ^^^ m' ≠ x := fun h => hne (by rw [← h, xor_xor_cancel_comm])
  rw [distance_xor_bchEncode, distance_xor_bchEncode, xor_xor_cancel_comm_assoc]
  exact h (m ^^^ m') hmoved

/-- Settles O60: the nearest codeword of the moved word is the nearest codeword moved, and moving back returns `r`. -/
theorem decoderCommutesWithCodewords : Obligations.DecoderCommutesWithCodewords := by
  intro r m
  rcases bchDecode_cases r with ⟨x, hdecode, hx⟩ | ⟨hdecode, hnone⟩
  · have hmoved := (bchDecode_eq_success_iff _ _).2 (isUniqueNearest_xor_bchEncode hx m)
    rw [hmoved, hdecode]
    exact ⟨rfl, fun _ => rfl⟩
  · have hmoved : (bchDecode (r ^^^ bchEncode m)).1 = false := by
      rw [← Bool.not_eq_true, bchDecode_ok_iff]
      rintro ⟨x, hx⟩
      have hback := isUniqueNearest_xor_bchEncode hx m
      rw [xor_cancel_right] at hback
      exact hnone _ hback
    rw [hmoved, hdecode]
    exact ⟨rfl, nofun⟩

/-! ### DEC: the CMD write and the completion (R162) -/

/-- Settles O20: DEC's effect on the issued block, whose latch holds OPA. -/
theorem decReportsTagAndMessage : Obligations.DecReportsTagAndMessage := by
  refine ⟨(decodeWord_eq_ok_iff _ .dec).2 rfl, fun s rest hidle => ?_⟩
  obtain ⟨t, u, hissue, hturn, hu⟩ := exec_engineTurn_of_idle (c := .dec) rest (by simp) rfl hidle
  refine ⟨t, u, hissue, hturn, ?_⟩
  rwa [decEffect_result, decEffect_valid, decEffect_dok] at hu

end Sys2Proof.Machine

/-! ## The comparator (44_distance.md)

Popcount is the number of elements of `setBits`, so its laws are those of finite sets, and Distance is Popcount of a
sum. The distances from one codeword are the weights of all codewords in another order, by linearity. -/

namespace Sys2Proof.Machine

/-! ### Popcount (R180, R184) -/

theorem popcount_eq_countP (x : Code) : popcount x = (List.range 15).countP x.getLsbD := by
  rw [popcount_eq_card, setBits, ← Nat.count_eq_card_filter_range, Nat.count]
  simp only [Bool.decide_eq_true]

theorem popcount_le_fifteen (x : Code) : popcount x ≤ 15 :=
  popcount_complement x ▸ Nat.le_add_left _ _

theorem popcount_eq_zero_iff (x : Code) : popcount x = 0 ↔ x = 0#15 := by
  rw [popcount_eq_card, Finset.card_eq_zero]
  constructor
  · exact fun h => setBits_injective (h.trans (by decide))
  · rintro rfl
    decide

theorem popcount_xor_le (a b : Code) : popcount (a ^^^ b) ≤ popcount a + popcount b :=
  popcount_add_popcount a b ▸ Nat.le_add_right _ _

/-- Settles O52: a count of 15 positions is below 16, and the common ones are counted twice. -/
theorem popcountIsAdditive : Obligations.PopcountIsAdditive :=
  ⟨fun a => Nat.lt_succ_of_le (popcount_le_fifteen a), popcount_add_popcount⟩

/-! ### Distance (R181, R185) -/

/-- Settles O51: a bit of the sum is set where the two words differ. -/
theorem distanceCountsDifferingBits : Obligations.DistanceCountsDifferingBits := by
  refine ⟨fun x => ⟨popcount_eq_countP x, popcount_le_fifteen x⟩, fun a b => ?_⟩
  rw [distance, popcount_eq_countP]
  exact List.countP_congr fun i _ => by rw [BitVec.getLsbD_xor]

theorem distance_comm (a b : Code) : distance a b = distance b a := by
  rw [distance, BitVec.xor_comm, distance]

theorem distance_eq_zero_iff (a b : Code) : distance a b = 0 ↔ a = b := by
  rw [distance, popcount_eq_zero_iff, BitVec.xor_eq_zero_iff]

theorem distance_xor_xor (a b w : Code) : distance (a ^^^ w) (b ^^^ w) = distance a b := by
  rw [distance, BitVec.xor_comm b w, BitVec.xor_assoc, xor_cancel_left, distance]

theorem distance_triangle (a b c : Code) : distance a c ≤ distance a b + distance b c := by
  have hvia : a ^^^ c = (a ^^^ b) ^^^ (b ^^^ c) := by rw [BitVec.xor_assoc, xor_cancel_left]
  rw [distance, hvia]
  exact popcount_xor_le _ _

/-- Settles O53: the weight of a sum is at most the sum of the weights, and zero for the zero word alone. -/
theorem distanceIsAMetric : Obligations.DistanceIsAMetric :=
  ⟨distance_eq_zero_iff, distance_comm, distance_triangle, distance_xor_xor⟩

/-! ### Distances between codewords (R186) -/

theorem distance_bchEncode_bchEncode (a b : Message) :
    distance (bchEncode a) (bchEncode b) = popcount (bchEncode (a ^^^ b)) := by
  rw [distance, bchEncode_xor]

theorem seven_le_distance {a b : Code} (ha : bchRemainder a = 0) (hb : bchRemainder b = 0) (hab : a ≠ b) :
    7 ≤ distance a b := by
  obtain ⟨m, rfl⟩ := (bchRemainder_eq_zero_iff_codeword a).1 ha
  obtain ⟨m', rfl⟩ := (bchRemainder_eq_zero_iff_codeword b).1 hb
  rw [distance_bchEncode_bchEncode]
  exact seven_le_codeword_weight _ fun h => hab (congrArg bchEncode (xor_eq_zero_iff.1 h))

/-- Adding a message only reorders the candidates. -/
theorem map_xor_candidates_perm (m : Message) : (candidates.map (m ^^^ ·)).Perm candidates :=
  (List.perm_ext_iff_of_nodup (candidates_nodup.map (xor_right_involutive m).injective) candidates_nodup).2
    fun x => iff_of_true (List.mem_map.2 ⟨m ^^^ x, mem_candidates _, xor_cancel_left m x⟩) (mem_candidates x)

/-- The distances from a codeword are the weights of the codewords. -/
theorem distances_perm_weights {a : Code} (ha : bchRemainder a = 0) :
    (candidates.map fun m => distance a (bchEncode m)).Perm (candidates.map fun m => popcount (bchEncode m)) := by
  obtain ⟨m, rfl⟩ := (bchRemainder_eq_zero_iff_codeword a).1 ha
  simp only [distance_bchEncode_bchEncode]
  have hperm := (map_xor_candidates_perm m).map fun m' => popcount (bchEncode m')
  rwa [List.map_map] at hperm

/-- Settles O54: both parts are the weights of the codewords, which linearity makes the distances. -/
theorem minimumDistanceIsSeven : Obligations.MinimumDistanceIsSeven := by
  obtain ⟨-, -, -, -, -, h7, h8, h15⟩ := encoderIsLinear
  refine ⟨fun a b => seven_le_distance, fun a ha => ?_⟩
  have hperm := distances_perm_weights ha
  exact ⟨(hperm.count_eq 7).trans h7, (hperm.count_eq 8).trans h8, (hperm.count_eq 15).trans h15⟩

/-! ### DIST and WGT: the CMD write and the completion (R182, R183) -/

/-- Settles O21: DIST's effect on the issued block, whose latch holds OPA and OPB. -/
theorem distReportsTheDistance : Obligations.DistReportsTheDistance := by
  refine ⟨(decodeWord_eq_ok_iff _ .dist).2 rfl, fun s rest hidle => ?_⟩
  obtain ⟨t, u, hissue, hturn, hu⟩ := exec_engineTurn_of_idle (c := .dist) rest (by simp) rfl hidle
  refine ⟨t, u, hissue, hturn, ?_⟩
  rwa [distEffect_result, distEffect_valid, distEffect_dok] at hu

/-- Settles O22: WGT's effect on the issued block, whose latch holds OPA. -/
theorem wgtReportsTheWeight : Obligations.WgtReportsTheWeight := by
  refine ⟨(decodeWord_eq_ok_iff _ .wgt).2 rfl, fun s rest hidle => ?_⟩
  obtain ⟨t, u, hissue, hturn, hu⟩ := exec_engineTurn_of_idle (c := .wgt) rest (by simp) rfl hidle
  refine ⟨t, u, hissue, hturn, ?_⟩
  rwa [wgtEffect_result, wgtEffect_valid, wgtEffect_dok] at hu

end Sys2Proof.Machine

/-! ## Exceptions (60_exceptions.md)

A turn that is not served is refused, in any state; under the invariant a served turn has a next state
(`step_of_served`). So the turn alone tells a next state from a refusal, and there is no third outcome. -/

namespace Sys2Proof.Machine

/-- The turns not served are the accesses outside the window, those that R202 refuses and those made during reset
(R222). -/
theorem takeTurn_refused_of_not_served {t : Turn} {s : State} (h : t.served s.platform = false) :
    ∃ why, takeTurn t s = .refused why := by
  cases t with
  | host a => exact (hostAccess_not_served h).elim (fun hbus => ⟨_, hbus⟩) (fun houtside => ⟨_, houtside⟩)
  | engine => cases h
  | reset during =>
    cases during with
    | none => cases h
    | some a => exact ⟨_, rfl⟩

/-- A step has a next state where its turn is served, and is refused everywhere else (R200). -/
theorem step_cases_of_inv {s : State} (hinv : s.Inv) :
    (s.turn.served s.platform = true ∧ ∃ t, step s = .next t) ∨
    (s.turn.served s.platform = false ∧ ∃ why, step s = .refused why) := by
  cases hserved : s.turn.served s.platform with
  | true => exact .inl ⟨rfl, step_of_served hinv.latchHoldsCommand hserved⟩
  | false => exact .inr ⟨rfl, step_eq_takeTurn s ▸ takeTurn_refused_of_not_served (s := s.popped) hserved⟩

/-- Settles O40: the turn is served and the step has a next state, or it is not and the step is refused. -/
theorem engineNeverTrapsAndNeverStops : Obligations.EngineNeverTrapsAndNeverStops := by
  intro s hinv
  rcases step_cases_of_inv hinv with ⟨hserved, t, ht⟩ | ⟨hserved, why, hwhy⟩
  · simp [hserved, ht]
  · simp [hserved, hwhy]

end Sys2Proof.Machine

/-! ## Reset (70_reset_and_hazards.md R220, R221)

The step of a reset is one equation (`step_resetTurn`). Right after it no command is in flight and every result stands
at its reset value; a turn that writes no computing word keeps both, since nothing is there to complete. -/

namespace Sys2Proof.Machine

/-- The step of a reset changes the block alone (R220, log 17). -/
theorem step_resetTurn {s : State} {rest : List Turn} (ha : s.agenda = .reset none :: rest) :
    step s = .next { s with agenda := rest, block := s.block.applyReset } := by
  simp [step_eq_takeTurn, turn_of_agenda ha, takeTurn, resetTurn, State.popped, State.onBlock, ha]

/-! ### No command resets (R220) -/

/-- An issue and an overrun leave the operand registers and the results as they are (40_control.md R101, R105). -/
theorem issueOrDrop_frame (op : Opcode) (b : Block) :
    (issueOrDrop op b).opa = b.opa ∧ (issueOrDrop op b).opb = b.opb ∧ (issueOrDrop op b).msg = b.msg ∧
      (issueOrDrop op b).result = b.result ∧ (issueOrDrop op b).valid = b.valid ∧ (issueOrDrop op b).dok = b.dok := by
  cases hbusy : b.pendValid with
  | true => simp [issueOrDrop_of_busy op b hbusy]
  | false => simp [issueOrDrop_of_idle op b hbusy]

/-- The CMD write of any command leaves the operand registers and the results as they are. -/
theorem exec_keeps_operands_and_results (c : Instr) (s : State) :
    ∃ t, exec c s = .next t ∧ t.block.opa = s.block.opa ∧ t.block.opb = s.block.opb ∧ t.block.msg = s.block.msg ∧
      t.block.result = s.block.result ∧ t.block.valid = s.block.valid ∧ t.block.dok = s.block.dok := by
  refine ⟨_, exec_eq_next c s, ?_⟩
  by_cases hnop : c = .nop
  · simp [hnop]
  · simpa [hnop] using issueOrDrop_frame (opcodeOf c) s.block

/-! ### The abandoned command -/

/-- No command is in flight, and the results are the reset values (10_state.md R46). -/
structure Block.ShowsNoResult (b : Block) : Prop where
  pendValid : b.pendValid = false
  done : b.done = false
  result : b.result = 0
  valid : b.valid = false
  dok : b.dok = false

theorem Block.showsNoResult_applyReset (b : Block) : b.applyReset.ShowsNoResult := by constructor <;> rfl

theorem Block.ShowsNoResult.of_sameEngine {b c : Block} (hc : c.ShowsNoResult) (h : b.SameEngine c) :
    b.ShowsNoResult where
  pendValid := h.pendValid.trans hc.pendValid
  done := h.done.trans hc.done
  result := h.result.trans hc.result
  valid := h.valid.trans hc.valid
  dok := h.dok.trans hc.dok

/-- The served turns that write no computing word to CMD; further resets are among them. -/
def IssuesNoCommand (p : Platform) (t : Turn) : Prop :=
  t.served p = true ∧ ∀ v, t.writes p 0x00 = some v → isComputingWord v = false

/-- With no command in flight, a turn that issues none brings no result. -/
theorem step_keeps_showsNoResult (s : State) (t : Turn) (rest : List Turn) (hs : s.block.ShowsNoResult)
    (ha : s.agenda = t :: rest) (ht : IssuesNoCommand s.platform t) :
    ∃ u, step s = .next u ∧ u.block.ShowsNoResult := by
  obtain ⟨hserved, hwrite⟩ := ht
  rw [← turn_of_agenda ha] at hserved hwrite
  have hidle := hs.pendValid
  obtain ⟨u, hu⟩ := step_of_served (by simp [hidle]) hserved
  refine ⟨u, hu, ?_⟩
  cases step_engine hu with
  | resets _ hb => exact hb ▸ Block.showsNoResult_applyReset _
  | completes _ _ _ hbusy _ _ => simp [hidle] at hbusy
  | issues v _ _ _ hw hv _ => simp [hwrite v hw] at hv
  | quiet _ _ _ hb => exact hs.of_sameEngine hb

/-- After a reset of any state, turns that issue no command bring no result. -/
theorem runSteps_reset_showsNoResult (s : State) {turns : List Turn}
    (hturns : ∀ t ∈ turns, IssuesNoCommand s.platform t) :
    ∃ t, runSteps (turns.length + 1) (s.withAgenda (.reset none :: turns)) = .next t ∧ t.block.ShowsNoResult := by
  have hreset := step_resetTurn (s := s.withAgenda (.reset none :: turns)) rfl
  obtain ⟨t, hrun, hshows, -, -⟩ := runSteps_turns_induction (fun u => u.block.ShowsNoResult) IssuesNoCommand
    step_keeps_showsNoResult turns { s with agenda := turns, block := s.block.applyReset } []
    s.block.showsNoResult_applyReset (by simp) hturns
  exact ⟨t, (runSteps_succ _ hreset).trans hrun, hshows⟩

/-- Settles O42: the reset block is the one the statement writes out, and nothing is left in it to complete. -/
theorem resetClearsAndAbandons : Obligations.ResetClearsAndAbandons := by
  refine fun s => ⟨fun rest ha => ⟨_, step_resetTurn ha, rfl⟩, fun c => exec_keeps_operands_and_results c s,
    fun turns hturns => ?_⟩
  obtain ⟨t, hrun, hshows⟩ := runSteps_reset_showsNoResult s hturns
  exact ⟨t, hrun, hshows.pendValid, hshows.done, hshows.result, hshows.valid, hshows.dok⟩

/-! ### What the host reads after a reset (R221) -/

/-- Every register of a block that was just reset reads zero. -/
theorem readReg_applyReset (r : Reg) (b : Block) : readReg r b.applyReset = 0x00000000#32 := by
  cases r with
  | status => simp [readReg, statusWord, statusBits, Block.busy]
  | cmd | opa | opb | msg | result | reserved => rfl

/-- Settles O43: the read after the reset finds a register of a block that was just reset. -/
theorem afterResetEveryOffsetReadsZero : Obligations.AfterResetEveryOffsetReadsZero := by
  intro s off hlt hal
  have hreset := step_resetTurn (s := s.withAgenda [.reset none, readTurn s.platform off]) rfl
  have hread := step_readTurn (s := { s with agenda := [readTurn s.platform off], block := s.block.applyReset })
    hlt hal rfl
  rw [readReg_applyReset] at hread
  exact ⟨_, (runSteps_succ 1 hreset).trans (runSteps_succ 0 hread), rfl, rfl, rfl, rfl, rfl⟩

end Sys2Proof.Machine
